-- ==== Sys2Proof/Word.lean ====
section
/-! DEFINITION. The unsigned words of the engine (spec/00_scope.md R9, R11): bytes and u16/u32 registers. All
arithmetic on them wraps modulo 2^N, which is what `BitVec` addition does. -/

namespace Sys2Proof

/-- A byte, an unsigned 8-bit value (R11). -/
abbrev Byte := BitVec 8

/-- u16: sequence numbers, payload lengths, CRC-16 values (R9). -/
abbrev U16 := BitVec 16

/-- u32: offsets, byte counts, CRC-32 values (R9). -/
abbrev U32 := BitVec 32

/-- `byte[32]`: a version string field (R10, R8 `VER_LEN`). -/
abbrev Version := Vector Byte 32

end Sys2Proof
end

