-- ==== Sys2Proof/Config.lean ====
section
/-! DEFINITION. The engine's parameters (spec/00_scope.md R8): the fixed ones as constants, the OPEN ones as the
structure `Params`, which State carries so that every theorem covers every value of them (log entry 14). -/

namespace Sys2Proof

namespace Config

/-- `PROTO_VERSION` (R8). -/
@[simp] abbrev protoVersion : Byte := 0x01#8

/-- `MAX_PAYLOAD` (R8). -/
@[simp] abbrev maxPayload : Nat := 1024

/-- `HDR_LEN` (R8; 90_conflicts.md C1). -/
@[simp] abbrev hdrLen : Nat := 12

/-- `FTR_LEN` (R8). -/
@[simp] abbrev ftrLen : Nat := 4

/-- `FRAME_MIN` = `HDR_LEN + FTR_LEN` (R8). -/
@[simp] abbrev frameMin : Nat := 16

/-- `FBUF_CAP` = `FRAME_MAX` = `HDR_LEN + MAX_PAYLOAD + FTR_LEN` (R8; 90_conflicts.md C1). -/
@[simp] abbrev fbufCap : Nat := 1040

/-- `START_LEN` (R8, 30_encoding.md R95). -/
@[simp] abbrev startLen : Nat := 76

/-- `VER_LEN` (R8). -/
@[simp] abbrev verLen : Nat := 32

/-- The opening marker's two bytes (00_scope.md R16, 30_encoding.md R80). -/
@[simp] abbrev marker1 : Byte := 0xAA#8
@[simp] abbrev marker2 : Byte := 0x55#8

/-- The closing marker's two bytes (30_encoding.md R80). -/
@[simp] abbrev footer1 : Byte := 0x55#8
@[simp] abbrev footer2 : Byte := 0xAA#8

end Config

/-- The OPEN parameters of R8, "fixed for the life of the model" (70_reset_and_hazards.md R344). No step changes them. -/
structure Params where
  /-- `IMG_HDR_MIN`, default 288 (R8, decision D15). -/
  imgHdrMin : Nat
  /-- `IMG_VER_OFF`, default 48 (R8, decision D15). -/
  imgVerOff : Nat
  /-- `VERIFY_CRC32`, default `false` (R8, decision D18). -/
  verifyCrc32 : Bool
  deriving DecidableEq, Repr

/-- The defaults of R8. -/
def Params.defaults : Params := ⟨288, 48, false⟩

end Sys2Proof
end

