-- ==== Sys2Proof/Syntax.lean ====
section
/-! DEFINITION. The instructions of the engine: command frames, one constructor of `Instr` per row of
spec/opcode_table.json, and the closed wire enumerations (30_encoding.md R84, R100, R103). -/

namespace Sys2Proof

/-- An instruction: a frame whose command code is a row of the table. Operands are the header's `sequence` and
`offset` and the payload bytes; the header's `length` is the payload's length (30_encoding.md R80, R83). -/
inductive Instr where
  /-- `START`, host to device (43_commands.md R192). -/
  | start (seq : U16) (off : U32) (payload : List Byte)
  /-- `DATA`, host to device (43_commands.md R200). -/
  | data (seq : U16) (off : U32) (payload : List Byte)
  /-- `END`, host to device (43_commands.md R210). -/
  | endTransfer (seq : U16) (off : U32) (payload : List Byte)
  /-- `ABORT`, host to device (43_commands.md R220). -/
  | abort (seq : U16) (off : U32) (payload : List Byte)
  /-- `QUERY_STATUS`, host to device (43_commands.md R225). -/
  | queryStatus (seq : U16) (off : U32) (payload : List Byte)
  /-- `ROLLBACK_REQ`, host to device (43_commands.md R230). -/
  | rollbackReq (seq : U16) (off : U32) (payload : List Byte)
  /-- `ACK`, device to host (44_replies.md R250). -/
  | ack (seq : U16) (off : U32) (payload : List Byte)
  /-- `NACK`, device to host (44_replies.md R255). -/
  | nack (seq : U16) (off : U32) (payload : List Byte)
  /-- `READY`, device to host (44_replies.md R258). -/
  | ready (seq : U16) (off : U32) (payload : List Byte)
  /-- `PROGRESS`, device to host (44_replies.md R260). -/
  | progress (seq : U16) (off : U32) (payload : List Byte)
  /-- `COMPLETE`, device to host (44_replies.md R265). -/
  | complete (seq : U16) (off : U32) (payload : List Byte)
  /-- `ERROR`, device to host (44_replies.md R267). -/
  | error (seq : U16) (off : U32) (payload : List Byte)
  /-- `STATUS_RESP`, device to host (44_replies.md R270). -/
  | statusResp (seq : U16) (off : U32) (payload : List Byte)
  deriving DecidableEq, Repr

/-- The thirteen command names, without operands (30_encoding.md R84). -/
inductive Opcode where
  | start | data | endTransfer | abort | queryStatus | rollbackReq
  | ack | nack | ready | progress | complete | error | statusResp
  deriving DecidableEq, Repr

/-- The command of an instruction. -/
def Instr.opcode : Instr → Opcode
  | .start _ _ _ => .start
  | .data _ _ _ => .data
  | .endTransfer _ _ _ => .endTransfer
  | .abort _ _ _ => .abort
  | .queryStatus _ _ _ => .queryStatus
  | .rollbackReq _ _ _ => .rollbackReq
  | .ack _ _ _ => .ack
  | .nack _ _ _ => .nack
  | .ready _ _ _ => .ready
  | .progress _ _ _ => .progress
  | .complete _ _ _ => .complete
  | .error _ _ _ => .error
  | .statusResp _ _ _ => .statusResp

/-- The `sequence` operand. -/
def Instr.seq : Instr → U16
  | .start q _ _ | .data q _ _ | .endTransfer q _ _ | .abort q _ _ | .queryStatus q _ _ | .rollbackReq q _ _
  | .ack q _ _ | .nack q _ _ | .ready q _ _ | .progress q _ _ | .complete q _ _ | .error q _ _
  | .statusResp q _ _ => q

/-- The `offset` operand. -/
def Instr.off : Instr → U32
  | .start _ o _ | .data _ o _ | .endTransfer _ o _ | .abort _ o _ | .queryStatus _ o _ | .rollbackReq _ o _
  | .ack _ o _ | .nack _ o _ | .ready _ o _ | .progress _ o _ | .complete _ o _ | .error _ o _
  | .statusResp _ o _ => o

/-- The payload operand. -/
def Instr.payload : Instr → List Byte
  | .start _ _ p | .data _ _ p | .endTransfer _ _ p | .abort _ _ p | .queryStatus _ _ p | .rollbackReq _ _ p
  | .ack _ _ p | .nack _ _ p | .ready _ _ p | .progress _ _ p | .complete _ _ p | .error _ _ p
  | .statusResp _ _ p => p

/-- The instruction with a given command and operands. -/
def Opcode.instr : Opcode → U16 → U32 → List Byte → Instr
  | .start => .start
  | .data => .data
  | .endTransfer => .endTransfer
  | .abort => .abort
  | .queryStatus => .queryStatus
  | .rollbackReq => .rollbackReq
  | .ack => .ack
  | .nack => .nack
  | .ready => .ready
  | .progress => .progress
  | .complete => .complete
  | .error => .error
  | .statusResp => .statusResp

/-- The transfer states (30_encoding.md R100). `waitingStart` and `applying` keep their wire codes and are never
entered (10_state.md R23). -/
inductive SessionState where
  | idle | waitingStart | receiving | verifying | applying | completed | error | rollback
  deriving DecidableEq, Repr

/-- The sixteen error codes (30_encoding.md R103), also the reasons of `ev_drop` (41_codec.md R141). -/
inductive ErrorCode where
  | noError | frameInvalid | crc | invalidState | seq | offset | partition | noMemory
  | flashWrite | flashErase | imageInvalid | version | timeout | busy | rollbackFailed | unknown
  deriving DecidableEq, Repr

end Sys2Proof
end

