-- ==== Sys2Proof/WellFormed.lean ====
section
/-! DEFINITION. The checks an instruction and the parameters pass: field widths are in the types, so what is left is
the payload bound of spec/30_encoding.md R81 and the parameter constraint of 43_commands.md R202. -/

namespace Sys2Proof

/-- "a frame is well formed only with `length <= MAX_PAYLOAD` (1024)" (30_encoding.md R81). -/
def Instr.wf (i : Instr) : Bool := decide (i.payload.length ≤ Config.maxPayload)

/-- "`IMG_HDR_MIN >= IMG_VER_OFF + 32` required so the version field is always inside `p`" (43_commands.md R202). -/
def Params.wf (p : Params) : Bool := decide (p.imgVerOff + Config.verLen ≤ p.imgHdrMin)

end Sys2Proof
end

