-- ==== Sys2Proof/Decode.lean ====
section
/-! DEFINITION. The wire: little-endian fields (spec/20_memory.md R62), CRC-16 (40_crc.md R120, R121), the command codes
(30_encoding.md R84), `decode` (41_codec.md R140, R141), then `encode` (41_codec.md R150), and the laying out of a row of
spec/opcode_table.json as a frame (log entries 15 and 17). -/

namespace Sys2Proof

/-! ### Byte strings (00_scope.md R12) -/

/-- `b[i]`; 0 beyond the end, where no rule reads (log entry 26). -/
def byteAt (b : List Byte) (i : Nat) : Byte := b.getD i 0#8

/-- `b[lo:hi)`. -/
def slice (b : List Byte) (lo hi : Nat) : List Byte := (b.drop lo).take (hi - lo)

/-- `le16(b, i)` (R12). -/
def le16 (b : List Byte) (i : Nat) : U16 :=
  (byteAt b i).zeroExtend 16 ||| ((byteAt b (i + 1)).zeroExtend 16 <<< 8)

/-- `le32(b, i)` (R12). -/
def le32 (b : List Byte) (i : Nat) : U32 :=
  (le16 b i).zeroExtend 32 ||| ((le16 b (i + 2)).zeroExtend 32 <<< 16)

/-- `LE16(v)` (R12). -/
def bytes16 (v : U16) : List Byte := [v.extractLsb' 0 8, v.extractLsb' 8 8]

/-- `LE32(v)` (R12). -/
def bytes32 (v : U32) : List Byte :=
  [v.extractLsb' 0 8, v.extractLsb' 8 8, v.extractLsb' 16 8, v.extractLsb' 24 8]

/-! ### CRC-16 (40_crc.md R120, R121) -/

/-- One of the eight bit steps of R120. -/
def crc16Bit (c : U16) : U16 :=
  if c.getLsbD 15 then (c <<< 1) ^^^ 0x1021#16 else c <<< 1

/-- `step16(c, b)`: the body of R120's `for` loop, `update(b)` of the streaming form (R121). -/
def crc16Byte (c : U16) (b : Byte) : U16 :=
  Nat.repeat crc16Bit 8 (c ^^^ (b.zeroExtend 16 <<< 8))

/-- `init` of the streaming form (R121). -/
def crc16Init : U16 := 0xFFFF#16

/-- The accumulator after feeding `d` to the accumulator `c` (R121). -/
def crc16Feed (c : U16) (d : List Byte) : U16 := d.foldl crc16Byte c

/-- `crc16(data)` (R120): nothing reflected, nothing XORed at the end. -/
def crc16 (d : List Byte) : U16 := crc16Feed crc16Init d

/-! ### Command codes (30_encoding.md R84) -/

/-- The command byte of each command (R84). -/
def Opcode.code : Opcode → Byte
  | .start => 0x01#8
  | .data => 0x02#8
  | .endTransfer => 0x03#8
  | .abort => 0x04#8
  | .queryStatus => 0x05#8
  | .rollbackReq => 0x06#8
  | .ack => 0x81#8
  | .nack => 0x82#8
  | .ready => 0x83#8
  | .progress => 0x84#8
  | .complete => 0x85#8
  | .error => 0x86#8
  | .statusResp => 0x87#8

/-- The command a byte stands for; `none` for the reserved values of R85. -/
def opcodeOf (code : Byte) : Option Opcode :=
  match code.toNat with
  | 0x01 => some .start
  | 0x02 => some .data
  | 0x03 => some .endTransfer
  | 0x04 => some .abort
  | 0x05 => some .queryStatus
  | 0x06 => some .rollbackReq
  | 0x81 => some .ack
  | 0x82 => some .nack
  | 0x83 => some .ready
  | 0x84 => some .progress
  | 0x85 => some .complete
  | 0x86 => some .error
  | 0x87 => some .statusResp
  | _ => none

/-! ### Decode (41_codec.md) -/

/-- The five decode errors (R141). -/
inductive DecodeError where
  | tooShort | markersInvalid | lengthMismatch | crcMismatch | unsupportedVersion
  deriving DecidableEq, Repr

/-- The `ev_drop` reason of each decode error (R141). -/
def DecodeError.reason : DecodeError → ErrorCode
  | .tooShort | .markersInvalid | .lengthMismatch => .frameInvalid
  | .crcMismatch => .crc
  | .unsupportedVersion => .version

/-- A decoded frame (R140). -/
structure Frame where
  command : Byte
  sequence : U16
  offset : U32
  length : U16
  payload : List Byte
  deriving DecidableEq, Repr

/-- `Frame | DecodeError` (R140). -/
inductive FrameResult where
  | frame (fr : Frame)
  | bad (e : DecodeError)
  deriving DecidableEq, Repr

/-- `decode(f)` of R140, the checks in its order. -/
def decodeFrame (f : List Byte) : FrameResult :=
  if f.length < Config.frameMin then .bad .tooShort
  else if byteAt f 0 ≠ Config.marker1 ∨ byteAt f 1 ≠ Config.marker2 then .bad .markersInvalid
  else if byteAt f (f.length - 2) ≠ Config.footer1 ∨ byteAt f (f.length - 1) ≠ Config.footer2 then .bad .markersInvalid
  else if Config.hdrLen + (le16 f 10).toNat + Config.ftrLen ≠ f.length then .bad .lengthMismatch
  else if le16 f (12 + (le16 f 10).toNat) ≠ crc16 (slice f 0 (12 + (le16 f 10).toNat)) then .bad .crcMismatch
  else if byteAt f 2 ≠ Config.protoVersion then .bad .unsupportedVersion
  else .frame ⟨byteAt f 3, le16 f 4, le32 f 6, le16 f 10, slice f 12 (12 + (le16 f 10).toNat)⟩

/-- What a candidate frame stands for: an instruction of the table, a decodable frame with a reserved command code
(30_encoding.md R85), or a decode error by name. -/
inductive Decoded where
  | instr (i : Instr)
  | reserved (fr : Frame)
  | bad (e : DecodeError)
  deriving DecidableEq, Repr

/-- The instruction of a candidate frame: `decode`, then the choice of the rule by the command byte
(30_encoding.md R104, 43_commands.md R190). Total on any byte string. -/
def decode (f : List Byte) : Decoded :=
  match decodeFrame f with
  | .bad e => .bad e
  | .frame fr =>
    match opcodeOf fr.command with
    | some o => .instr (o.instr fr.sequence fr.offset fr.payload)
    | none => .reserved fr

/-! ### Encode (41_codec.md R150) -/

/-- The header and payload of a frame (30_encoding.md R80), the bytes its CRC-16 covers (40_crc.md R122). -/
def frameBody (version cmd : Byte) (seq : U16) (off : U32) (p : List Byte) : List Byte :=
  [Config.marker1, Config.marker2, version, cmd] ++ bytes16 seq ++ bytes32 off ++ bytes16 (BitVec.ofNat 16 p.length) ++ p

/-- A frame's last four bytes: the CRC-16 of what precedes them and the closing marker. -/
def frameTrailer (body : List Byte) : List Byte := bytes16 (crc16 body) ++ [Config.footer1, Config.footer2]

/-- `encode(cmd, seq, off, p)` (R150). -/
def encodeFrame (cmd : Byte) (seq : U16) (off : U32) (p : List Byte) : List Byte :=
  frameBody Config.protoVersion cmd seq off p ++ frameTrailer (frameBody Config.protoVersion cmd seq off p)

/-- The wire bytes of an instruction. -/
def encode (i : Instr) : List Byte := encodeFrame i.opcode.code i.seq i.off i.payload

/-! ### A row of the opcode table as a frame -/

/-- Byte `i` of an instruction whose bits are `w`: bytes 0 to 3 are the table's 32-bit string, byte 0 most significant
(30_encoding.md R104); later bytes count on from bit 32 (log entry 17). -/
def tableByte (w i : Nat) : Byte :=
  if i < 4 then BitVec.ofNat 8 (w / 2 ^ (8 * (3 - i))) else BitVec.ofNat 8 (w / 2 ^ (8 * i))

/-- The instruction's first `n` bytes, then zeros up to `m` bytes. -/
def tableBytes (n w m : Nat) : List Byte :=
  (List.range m).map fun i => if i < n then tableByte w i else 0#8

/-- The frame of an instruction whose `nbits` given bits are `w` and whose other operand bits are 0: the header and
payload, completed by the trailer every frame carries (log entry 15). -/
def tableFrame (nbits w : Nat) : List Byte :=
  let n := if nbits ≤ 32 then 4 else nbits / 8
  let len := (le16 (tableBytes n w Config.hdrLen) 10).toNat
  let body := tableBytes n w (Config.hdrLen + len)
  body ++ frameTrailer body

/-- The instruction the decoder reads from the frame of `tableFrame`; `none` where it reads none. -/
def decodeTableWord (nbits w : Nat) : Option Instr :=
  match decode (tableFrame nbits w) with
  | .instr i => some i
  | .reserved _ => none
  | .bad _ => none

end Sys2Proof
end

