-- ==== Sys2Proof/Machine/State.lean ====
section
/-! DEFINITION. The state of the engine (spec/10_state.md), all of it: the Transfer Session registers S (`Session`), the
framer buffer F.buf (`fbuf`), the engine control state E (`Engine`), the image offset space of 20_memory.md R60 (`image`);
beside it the model's own fields: the parameters (`params`), the input ports (`env`, `later`) and the record of the output
ports (`out`). Reset values: 70_reset_and_hazards.md R341. -/

namespace Sys2Proof.Machine

/-- A backend handle, opaque: only passed back to the backend (R30, log entry 18). -/
abbrev Handle := Nat

/-- A partition id, opaque: compared only for equality (00_scope.md R10, log entry 18). -/
abbrev PartId := Nat

/-- Contents of the image offset space: (offset, byte) pairs, offsets strictly rising; an unlisted offset holds no value
the engine has put there (log entry 11). A record of accepted writes, not of the partition's present contents, which
93_implementation_defined.md I10 leaves open after an abort, a write failure, a reset or a rollback (log entries 11, 30). -/
abbrev Memory := List Host.Cell

/-- The Transfer Session registers, R23 to R32. -/
structure Session where
  /-- `S.state` (R23). -/
  state : SessionState
  /-- `S.lastError` (R24). -/
  lastError : ErrorCode
  /-- `S.totalBytes` (R25). -/
  totalBytes : U32
  /-- `S.receivedBytes` (R26). -/
  receivedBytes : U32
  /-- `S.firmwareCRC32` (R27). -/
  firmwareCRC32 : U32
  /-- `S.expectedSequence` (R28). -/
  expectedSequence : U16
  /-- `S.imageHeaderChecked` (R29). -/
  imageHeaderChecked : Bool
  /-- `S.handleOpen` (R30). -/
  handleOpen : Bool
  /-- `S.handle` (R30); meaningful only while `handleOpen`. -/
  handle : Handle
  /-- `S.imageCRC32`, the running non-complemented CRC-32 (R31). -/
  imageCRC32 : U32
  /-- `S.progressDecile`, an integer 0 to 10 (R32). -/
  progressDecile : Fin 11
  deriving DecidableEq, Repr

/-- `E.phase` (R36). -/
inductive Phase where
  | scan | exec | tx | halt
  deriving DecidableEq, Repr

/-- `E.halt` (R38). -/
inductive HaltReq where
  | noHalt | restart | rollback
  deriving DecidableEq, Repr

/-- A backend request (R40): what stands on `bk_req` while it is outstanding. -/
inductive BkReq where
  /-- `BEGIN(size)`. -/
  | beginUpdate (size : U32)
  /-- `WRITE(h, offset, data)`. -/
  | write (h : Handle) (off : U32) (payload : List Byte)
  /-- `END(h)`. -/
  | endUpdate (h : Handle)
  /-- `ABORT(h)`. -/
  | abortUpdate (h : Handle)
  /-- `SET_BOOT(h)`. -/
  | setBoot (h : Handle)
  deriving DecidableEq, Repr

/-- A backend answer (R41). -/
inductive BkResp where
  /-- `OK(h)`, an answer to `BEGIN`. -/
  | okHandle (h : Handle)
  /-- `OK`, an answer to `WRITE`, `END` or `SET_BOOT`. -/
  | ok
  /-- `ERR`, an answer to `BEGIN`, `WRITE`, `END` or `SET_BOOT`. -/
  | err
  /-- `DONE`, the answer to `ABORT`. -/
  | done
  deriving DecidableEq, Repr

/-- What follows the internal abort in the rule that runs it (43_commands.md R240). -/
inductive AfterAbort where
  /-- The failure paths: the NACK is already queued and the rule ends. -/
  | finished
  /-- ABORT: the ACK to the request of this sequence follows (R220). -/
  | ack (seq : U16)
  deriving DecidableEq, Repr

/-- Where a command rule stands between backend calls (`E.cont`, R39), with the operands the rest of the rule reads
(log entry 6). -/
inductive Cont where
  /-- START after `BEGIN` (43_commands.md R192). -/
  | startBegin (seq : U16) (size fcrc : U32)
  /-- DATA after `WRITE` (R200). -/
  | dataWrite (seq : U16) (payload : List Byte)
  /-- END after `END` (R210). -/
  | endEnd (seq : U16)
  /-- END after `SET_BOOT` (R210). -/
  | endSetBoot (seq : U16)
  /-- The internal abort after `ABORT` (R240). -/
  | abortDone (k : AfterAbort)
  deriving DecidableEq, Repr

/-- A backend request outstanding: the request on `bk_req` and the continuation (20_memory.md R66). -/
structure Pending where
  req : BkReq
  cont : Cont
  deriving DecidableEq, Repr

/-- The engine control state, R36 to R39. -/
structure Engine where
  /-- `E.phase` (R36). -/
  phase : Phase
  /-- `E.txq`, the reply bytes queued and not yet sent (R37). -/
  txq : List Byte
  /-- `E.halt` (R38). -/
  halt : HaltReq
  /-- `E.cur`, the frame being executed (R39). -/
  cur : List Byte
  /-- `E.cont` with the outstanding request; `none` when no request is outstanding (R39). -/
  cont : Option Pending
  deriving DecidableEq, Repr

/-- The MODEL's own: the levels of the input ports in the present step (R40; 00_scope.md R10; log entries 1 and 2). -/
structure Env where
  /-- `rst` (70_reset_and_hazards.md R340). -/
  rst : Bool
  /-- The bytes the transport holds, oldest first: `rx_valid` is "not empty", `rx_data` the head. -/
  rx : List Byte
  /-- `tx_ready`. -/
  txReady : Bool
  /-- The backend's answers in request order; the head is on `bk_resp` (log entry 7). -/
  bkResp : List BkResp
  /-- `updCapacity`; `none` when no update partition exists. -/
  updCapacity : Option U32
  /-- `runningPart`. -/
  runningPart : PartId
  /-- `bootPart`. -/
  bootPart : PartId
  /-- `lastInvalidVer`. -/
  lastInvalidVer : Option Version
  /-- `runningVer`. -/
  runningVer : Version
  deriving DecidableEq, Repr

/-- The MODEL's own: what the output ports have shown so far, oldest first; read by no rule (log entry 13). -/
structure Outputs where
  /-- The reply bytes the sink has taken. -/
  tx : List Byte
  /-- The backend requests issued. -/
  reqs : List BkReq
  /-- The `ev_drop` events recorded (60_exceptions.md R300). -/
  drops : List ErrorCode
  deriving DecidableEq, Repr

/-- The state of the machine. -/
structure State where
  /-- S, the Transfer Session registers. -/
  sess : Session
  /-- `F.buf` (R35). -/
  fbuf : List Byte
  /-- E, the engine control state. -/
  eng : Engine
  /-- The image offset space (20_memory.md R60 (b), R61): what accepted writes put there (log entries 11, 30). -/
  image : Memory
  /-- The OPEN parameters (00_scope.md R8); no step changes them. -/
  params : Params
  /-- The input ports in the present step. -/
  env : Env
  /-- What the environment does to its ports before each of the next steps: `some e` sets them to `e`, `none` leaves
  them as the engine's own handshakes left them; after the list's end it does nothing (log entry 5). -/
  later : List (Option Env)
  /-- The record of the output ports. -/
  out : Outputs
  deriving DecidableEq, Repr

/-- Why a step can stop. No instruction's meaning raises either of these; the driver does, in situations the spec gives no
behaviour for. -/
inductive Fault where
  /-- Raised by the step that would resume a command when the answer on `bk_resp` is of a kind 10_state.md R41 does not
  list for the outstanding request (a `DONE` to a `BEGIN`, say). Safe: the spec says nothing there (log entry 8). -/
  | badBackendAnswer
  /-- Raised in phase TX with an empty transmit queue, which no run reaches: `tx_data = E.txq[0]` has no value there. Safe
  (log entry 9). -/
  | nothingToSend
  deriving DecidableEq, Repr

/-- Why an instruction is given no meaning. -/
inductive Refusal where
  /-- The instruction of this mnemonic has no meaning in the model. No arm of `exec` answers it: every instruction of
  the table has its meaning. Safe. -/
  | notModelled (mnemonic : String)
  deriving DecidableEq, Repr

/-- The session registers at reset (R341). `handle` is unspecified by the spec: log entry 3. -/
def Session.reset : Session where
  state := .idle
  lastError := .noError
  totalBytes := 0
  receivedBytes := 0
  firmwareCRC32 := 0
  expectedSequence := 0
  imageHeaderChecked := false
  handleOpen := false
  handle := 0
  imageCRC32 := 0xFFFFFFFF#32
  progressDecile := 0

/-- The control state at reset (R341). `cur` and `cont` are unspecified by the spec: log entry 4. -/
def Engine.reset : Engine where
  phase := .scan
  txq := []
  halt := .noHalt
  cur := []
  cont := none

/-- The version string "v1.0.0" padded with NULs, the `runningVer` of 95_test_vectors.md's conventions. -/
def conventionalVersion : Version :=
  #v[0x76, 0x31, 0x2E, 0x30, 0x2E, 0x30, 0, 0, 0, 0, 0, 0, 0, 0, 0, 0, 0, 0, 0, 0, 0, 0, 0, 0, 0, 0, 0, 0, 0, 0, 0, 0]

/-- The input ports at reset: nothing offered, the sink ready, and the query values of 95_test_vectors.md's conventions.
The spec gives inputs no reset value: log entry 2. -/
def Env.atReset : Env where
  rst := false
  rx := []
  txReady := true
  bkResp := []
  updCapacity := some 0x100000#32
  runningPart := 0
  bootPart := 0
  lastInvalidVer := none
  runningVer := conventionalVersion

/-- The machine right after reset (R341). -/
def State.reset : State where
  sess := Session.reset
  fbuf := []
  eng := Engine.reset
  image := []
  params := Params.defaults
  env := Env.atReset
  later := []
  out := ⟨[], [], []⟩

end Sys2Proof.Machine
end

