-- ==== Sys2Proof/Machine/Crc.lean ====
section
/-! DEFINITION. The CRC-32 half of the CRC unit (spec/40_crc.md R125, R126); the CRC-16 half stands in Decode.lean, which
needs it. -/

namespace Sys2Proof.Machine

/-- One of the eight bit steps of R125. -/
def crc32Bit (c : U32) : U32 :=
  if c.getLsbD 0 then (c >>> 1) ^^^ 0xEDB88320#32 else c >>> 1

/-- `update(b)`: the body of R125's `for` loop. -/
def crc32Byte (c : U32) (b : Byte) : U32 := Nat.repeat crc32Bit 8 (c ^^^ b.zeroExtend 32)

/-- `init` of the streaming form (R126). -/
def crc32Init : U32 := 0xFFFFFFFF#32

/-- `crc32_update(c, d)` (R126). -/
def crc32Update (c : U32) (d : List Byte) : U32 := d.foldl crc32Byte c

/-- `result` of the streaming form: the complement (R126). -/
def crc32Result (c : U32) : U32 := c ^^^ 0xFFFFFFFF#32

/-- `crc32(data)` (R125). -/
def crc32 (d : List Byte) : U32 := crc32Result (crc32Update crc32Init d)

end Sys2Proof.Machine
end

