-- ==== Sys2Proof/Machine/Operands.lean ====
section
/-! DEFINITION. The payload layouts (spec/30_encoding.md R95 to R103): the fields read from a command's payload, the wire
codes of states and errors, and the payloads of the replies. -/

namespace Sys2Proof.Machine

/-! ### The START payload (R95) -/

/-- `firmwareSize` u32 at `[0:4)`. -/
def startFirmwareSize (p : List Byte) : U32 := le32 p 0

/-- `firmwareCRC32` u32 at `[4:8)`. -/
def startFirmwareCRC32 (p : List Byte) : U32 := le32 p 4

/-- `version` char[32] at `[8:40)`; read by no rule (43_commands.md R195). -/
def startVersion (p : List Byte) : List Byte := slice p 8 40

/-- `projectName` char[32] at `[40:72)`; read by no rule (R195). -/
def startProjectName (p : List Byte) : List Byte := slice p 40 72

/-- `blockSize` u32 at `[72:76)`; read by no rule (R195). -/
def startBlockSize (p : List Byte) : U32 := le32 p 72

/-! ### Wire codes -/

/-- State codes (R100). -/
def stateCode : SessionState → Byte
  | .idle => 0#8
  | .waitingStart => 1#8
  | .receiving => 2#8
  | .verifying => 3#8
  | .applying => 4#8
  | .completed => 5#8
  | .error => 6#8
  | .rollback => 7#8

/-- ErrorCode values (R103). -/
def errorByte : ErrorCode → Byte
  | .noError => 0#8
  | .frameInvalid => 1#8
  | .crc => 2#8
  | .invalidState => 3#8
  | .seq => 4#8
  | .offset => 5#8
  | .partition => 6#8
  | .noMemory => 7#8
  | .flashWrite => 8#8
  | .flashErase => 9#8
  | .imageInvalid => 10#8
  | .version => 11#8
  | .timeout => 12#8
  | .busy => 13#8
  | .rollbackFailed => 14#8
  | .unknown => 15#8

/-! ### Reply payloads -/

/-- `ACK` and `NACK` payload, 7 bytes (R98). -/
def ackPayload (code : ErrorCode) (expectedSeq : U16) (receivedBytes : U32) : List Byte :=
  [errorByte code] ++ bytes16 expectedSeq ++ bytes32 receivedBytes

/-- `PROGRESS` payload, 9 bytes (R99). -/
def progressPayload (receivedBytes totalBytes : U32) (percentage : Nat) : List Byte :=
  bytes32 receivedBytes ++ bytes32 totalBytes ++ [BitVec.ofNat 8 percentage]

/-- `STATUS_RESP` payload, 42 bytes (R101). -/
def statusPayload (state : SessionState) (lastError : ErrorCode) (receivedBytes totalBytes : U32)
    (currentVersion : Version) : List Byte :=
  [stateCode state, errorByte lastError] ++ bytes32 receivedBytes ++ bytes32 totalBytes ++ currentVersion.toList

/-- `READY`, `COMPLETE` and `ERROR` payload: empty (R102). -/
def emptyPayload : List Byte := []

end Sys2Proof.Machine
end

