-- ==== Sys2Proof/Machine/Flags.lean ====
section
/-! DEFINITION. The conditions the command rules compute: the image-header check that sets `S.imageHeaderChecked`
(spec/43_commands.md R202), the progress percentage and its tenth (44_replies.md R262), END's checks (43_commands.md
R211) and START's capacity check (R193). The engine has no condition codes (10_state.md R42). -/

namespace Sys2Proof.Machine

/-- `cstr(x)`: the bytes before the first NUL, or all of `x` if there is none (R202). -/
def cstr : List Byte → List Byte
  | [] => []
  | b :: r => if b = 0#8 then [] else b :: cstr r

/-- The new image's version field, `p[IMG_VER_OFF : IMG_VER_OFF + 32)` (R202). -/
def imageVersion (pr : Params) (p : List Byte) : List Byte :=
  slice p pr.imgVerOff (pr.imgVerOff + Config.verLen)

/-- `imageHeaderOK(p)` (R202). -/
def imageHeaderOK (pr : Params) (lastInvalidVer : Option Version) (p : List Byte) : Bool :=
  if p.length < pr.imgHdrMin then false
  else
    match lastInvalidVer with
    | none => true
    | some v => decide (cstr (imageVersion pr p) ≠ cstr v.toList)

/-- "no update partition, or `firmwareSize > updCapacity`" is refused (R192, R193). -/
def fitsPartition (size : U32) : Option U32 → Bool
  | none => false
  | some cap => decide (size ≤ cap)

/-- The percentage of R262, on unbounded naturals. -/
def percent (received total : U32) : Nat :=
  if total = 0 then 100 else min 100 (received.toNat * 100 / total.toNat)

/-- `d = floor(pct / 10)` of R262; at most 10 since the percentage is at most 100. -/
def decileOf (pct : Nat) : Fin 11 := Fin.ofNat 11 (min 10 (pct / 10))

/-- END's CRC-32 check fails: `VERIFY_CRC32` and the complemented running value differs from the declared one (R211). -/
def crcMismatch (pr : Params) (imageCRC32 firmwareCRC32 : U32) : Bool :=
  pr.verifyCrc32 && decide (crc32Result imageCRC32 ≠ firmwareCRC32)

end Sys2Proof.Machine
end

