-- ==== Sys2Proof/Machine/Ops.lean ====
section
/-! DEFINITION. The operations the command rules share: the image offset space (spec/20_memory.md R60, R61), replies
(44_replies.md), backend requests (20_memory.md R66), the NACK, which is the engine's taking of an exception, and the drop
(60_exceptions.md R300, R304), the internal abort and the session clear (43_commands.md R240, R241), and a rule's end
(45_driver.md R283), which is the only return from either (60_exceptions.md R304, R305). -/

namespace Sys2Proof.Machine

/-! ### The image offset space -/

/-- What an offset holds; `none`, what an unlisted offset reads as, where no accepted write has put a byte. -/
def Memory.read : Memory → Nat → Option Byte
  | [], _ => none
  | (k, v) :: r, a => if k = a then some v else Memory.read r a

/-- One byte written, the canonical form kept. -/
def Memory.put : Memory → Nat → Byte → Memory
  | [], a, v => [(a, v)]
  | (k, w) :: r, a, v =>
    if a < k then (a, v) :: (k, w) :: r
    else if a = k then (a, v) :: r
    else (k, w) :: Memory.put r a v

/-- The number of offsets: offsets are u32 (R60). -/
def imageSize : Nat := 2 ^ 32

/-- The image offset of byte `i` of a payload written at offset `off` (R61; u32 arithmetic wraps, log entry 12). -/
def imageAddr (off : U32) (i : Nat) : Nat := (off.toNat + i) % imageSize

/-- Bytes written from offset `a` up. -/
def Memory.putAll : Memory → Nat → List Byte → Memory
  | m, _, [] => m
  | m, a, b :: r => Memory.putAll (m.put (a % imageSize) b) (a + 1) r

/-- "Byte `i` of an accepted DATA payload is written to image offset `off + i`" (R61). -/
def Memory.writePayload (m : Memory) (off : U32) (p : List Byte) : Memory := m.putAll off.toNat p

/-- The canonical form: offsets strictly rising and inside the space. (No entry can equal what an unlisted offset reads
as, which is no value.) -/
abbrev Memory.wf (m : Memory) : Prop :=
  m.Pairwise (fun x y => x.1 < y.1) ∧ ∀ c ∈ m, c.1 < imageSize

/-! ### Replies -/

/-- `emit(cmd, seq, off, payload)` (00_scope.md R14): appends the encoded reply to `E.txq`. -/
def State.emit (s : State) (cmd : Opcode) (seq : U16) (off : U32) (payload : List Byte) : State :=
  { s with eng := { s.eng with txq := s.eng.txq ++ encodeFrame cmd.code seq off payload } }

/-- `ack(seq)` (44_replies.md R251). -/
def State.ack (s : State) (seq : U16) : State :=
  s.emit .ack seq s.sess.receivedBytes (ackPayload .noError s.sess.expectedSequence s.sess.receivedBytes)

/-- `S.lastError <- code`. -/
def State.setLastError (s : State) (code : ErrorCode) : State :=
  { s with sess := { s.sess with lastError := code } }

/-- `nack(seq, code)` (44_replies.md R255): what every failure of a decodable frame does, the engine's taking of an
exception (60_exceptions.md R304). -/
def State.nack (s : State) (seq : U16) (code : ErrorCode) : State :=
  (s.setLastError code).emit .nack seq s.sess.receivedBytes
    (ackPayload code s.sess.expectedSequence s.sess.receivedBytes)

/-- `progress(seq)` (44_replies.md R262): a PROGRESS reply when a new tenth is reached. -/
def State.progress (s : State) (seq : U16) : State :=
  let pct := percent s.sess.receivedBytes s.sess.totalBytes
  let d := decileOf pct
  if s.sess.progressDecile < d then
    State.emit { s with sess := { s.sess with progressDecile := d } } .progress seq s.sess.receivedBytes
      (progressPayload s.sess.receivedBytes s.sess.totalBytes pct)
  else s

/-! ### The course of a command rule -/

/-- `resp <- Backend.OP(args)` up to the wait (20_memory.md R66, 45_driver.md R282): the request stands on `bk_req`, the
continuation is recorded, the phase is EXEC. -/
def State.request (s : State) (r : BkReq) (k : Cont) : State :=
  { s with
    eng := { s.eng with phase := .exec, cont := some ⟨r, k⟩ }
    out := { s.out with reqs := s.out.reqs ++ [r] } }

/-- The end of a command rule (45_driver.md R283): its replies are transmitted next. -/
def State.finish (s : State) : State :=
  { s with eng := { s.eng with phase := .tx, cont := none } }

/-- A NACK as the whole rest of a rule: `nack(seq, code); return`. -/
def State.nackReturn (s : State) (seq : U16) (code : ErrorCode) : State := (s.nack seq code).finish

/-- A drop (60_exceptions.md R300, 45_driver.md R281): one `ev_drop(reason)`, no reply, no session register changed; the
engine goes back to taking bytes. -/
def State.drop (s : State) (reason : ErrorCode) : State :=
  { s with
    eng := { s.eng with phase := .scan }
    out := { s.out with drops := s.out.drops ++ [reason] } }

/-- `wrongState(fr)` (43_commands.md R236). -/
def State.wrongState (s : State) (seq : U16) : State :=
  let t := s.nack seq .invalidState
  if s.sess.state = .idle ∨ s.sess.state = .error then { t with sess := { t.sess with state := .error } } else t

/-! ### The session clear and the internal abort -/

/-- The registers after `clearSession()` (43_commands.md R241). -/
def Session.clear (r : Session) : Session :=
  { r with
    totalBytes := 0
    receivedBytes := 0
    firmwareCRC32 := 0
    expectedSequence := 0
    imageHeaderChecked := false
    imageCRC32 := 0xFFFFFFFF#32
    progressDecile := 0 }

/-- `clearSession()`; the image offset space's contents are then no longer known (93_implementation_defined.md I10, log
entry 11). -/
def State.clearSession (s : State) : State := { s with sess := s.sess.clear, image := [] }

/-- The internal abort from the session clear on, and the rest of the rule that runs it (R240, R220). -/
def State.endAbort (s : State) (k : AfterAbort) : State :=
  let t := { s.clearSession with sess := { s.clearSession.sess with state := .idle } }
  match k with
  | .finished => t.finish
  | .ack seq => (t.ack seq).finish

/-- `abortInternal()` (R240) and the rest of the rule that runs it: an open handle is released first, by a backend
request. The image record is emptied with the session, when the request has been answered (DESIGN CHOICE, log entries 11
and 30). -/
def State.abortInternal (s : State) (k : AfterAbort) : State :=
  if s.sess.handleOpen then s.request (.abortUpdate s.sess.handle) (.abortDone k) else s.endAbort k

end Sys2Proof.Machine
end

