-- ==== Sys2Proof/Machine/Framer.lean ====
section
/-! DEFINITION. The stream framer (spec/42_framer.md): marker search, the scan, the receive step, and the source's chunked
form of the same framer, which statements compare with it (R168). -/

namespace Sys2Proof.Machine

/-- `findMarker()`: the least position of the pair AA 55 (R161). -/
def findMarker : List Byte → Option Nat
  | a :: b :: r =>
    if a = Config.marker1 ∧ b = Config.marker2 then some 0 else (findMarker (b :: r)).map (· + 1)
  | _ => none

/-- What a scan leaves in `F.buf`, the frame it extracts, and the `ev_drop` events it records. -/
structure ScanResult where
  buf : List Byte
  frame : Option (List Byte)
  drops : List ErrorCode
  deriving DecidableEq, Repr

/-- What a buffer without a marker keeps: a final AA, as a possible first half of a marker (R163). -/
def keepHalfMarker (buf : List Byte) : List Byte :=
  if buf.getLast? = some Config.marker1 then [Config.marker1] else []

/-- The loop of R162, with fuel: every turn that goes on removes two bytes (R167), so `scan`'s fuel is never used up
(log entry 29). -/
def scanLoop : Nat → List Byte → ScanResult
  | 0, buf => ⟨buf, none, []⟩
  | fuel + 1, buf =>
    match findMarker buf with
    | none => ⟨keepHalfMarker buf, none, []⟩
    | some p =>
      let b := buf.drop p
      if b.length < Config.hdrLen then ⟨b, none, []⟩
      else if Config.maxPayload < (le16 b 10).toNat then
        let r := scanLoop fuel (b.drop 2)
        ⟨r.buf, r.frame, .frameInvalid :: r.drops⟩
      else if b.length < Config.hdrLen + (le16 b 10).toNat + Config.ftrLen then ⟨b, none, []⟩
      else
        ⟨b.drop (Config.hdrLen + (le16 b 10).toNat + Config.ftrLen),
          some (b.take (Config.hdrLen + (le16 b 10).toNat + Config.ftrLen)), []⟩

/-- `scan()` (R162). -/
def scan (buf : List Byte) : ScanResult := scanLoop (buf.length + 1) buf

/-- `rx_step(b)` (R160): append, scan, and start the execution of an extracted frame. -/
def State.rxStep (s : State) (b : Byte) : State :=
  let r := scan (s.fbuf ++ [b])
  let t := { s with fbuf := r.buf, out := { s.out with drops := s.out.drops ++ r.drops } }
  match r.frame with
  | none => t
  | some f => { t with eng := { t.eng with phase := .exec, cur := f, cont := none } }

/-! ### The source's chunked form (R160, R168) -/

/-- The frames, drops and final buffer of a run of the framer. -/
structure FeedResult where
  buf : List Byte
  frames : List (List Byte)
  drops : List ErrorCode
  deriving DecidableEq, Repr

/-- `tryExtractFrame` until it returns `None`, with fuel: every extraction removes at least 16 bytes. -/
def drainLoop : Nat → List Byte → FeedResult
  | 0, buf => ⟨buf, [], []⟩
  | fuel + 1, buf =>
    let r := scan buf
    match r.frame with
    | none => ⟨r.buf, [], r.drops⟩
    | some f =>
      let q := drainLoop fuel r.buf
      ⟨q.buf, f :: q.frames, r.drops ++ q.drops⟩

/-- `feed(chunk)` and then `tryExtractFrame` until `None`. -/
def feedChunk (buf chunk : List Byte) : FeedResult := drainLoop ((buf ++ chunk).length + 1) (buf ++ chunk)

/-- A byte sequence fed chunk by chunk. -/
def feedChunks : List Byte → List (List Byte) → FeedResult
  | buf, [] => ⟨buf, [], []⟩
  | buf, c :: cs =>
    let r := feedChunk buf c
    let q := feedChunks r.buf cs
    ⟨q.buf, r.frames ++ q.frames, r.drops ++ q.drops⟩

/-- A byte sequence fed one byte at a time, each byte followed by ONE scan, as the engine does (R160). -/
def feedBytes : List Byte → List Byte → FeedResult
  | buf, [] => ⟨buf, [], []⟩
  | buf, b :: bs =>
    let r := scan (buf ++ [b])
    let q := feedBytes r.buf bs
    ⟨q.buf, r.frame.toList ++ q.frames, r.drops ++ q.drops⟩

end Sys2Proof.Machine
end

