-- ==== Sys2Proof/Machine/Transfer.lean ====
section
/-! DEFINITION. The transfer commands START, DATA and END (spec/43_commands.md R192 to R215): each rule up to its first
backend request (`execStart`, `execData`, `execEnd`), and the rest of it from the answer on (`resumeStart` ...). -/

namespace Sys2Proof.Machine

/-! ### START (R192 to R196) -/

/-- START up to `BEGIN` (R192): state, payload length and capacity checks in the order of 60_exceptions.md R303. -/
def execStart (seq : U16) (_off : U32) (p : List Byte) (s : State) : Host.Outcome State Fault Refusal :=
  .next <|
    if ¬(s.sess.state = .idle ∨ s.sess.state = .error) then s.nackReturn seq .invalidState
    else if p.length < Config.startLen then s.nackReturn seq .frameInvalid
    else if fitsPartition (startFirmwareSize p) s.env.updCapacity = false then s.nackReturn seq .partition
    else
      s.request (.beginUpdate (startFirmwareSize p))
        (.startBegin seq (startFirmwareSize p) (startFirmwareCRC32 p))

/-- START after `BEGIN` answered `OK(h)` (R195). -/
def State.startOk (s : State) (seq : U16) (size fcrc : U32) (h : Handle) : State :=
  let t := State.clearSession { s with sess := { s.sess with handle := h, handleOpen := true } }
  let u := { t with sess := { t.sess with
    totalBytes := size
    firmwareCRC32 := fcrc
    lastError := .noError
    state := .receiving } }
  (u.emit .ready seq u.sess.receivedBytes emptyPayload).finish

/-- START from the answer to `BEGIN` on (R192, R194, R195). -/
def resumeStart (seq : U16) (size fcrc : U32) (r : BkResp) (s : State) : Host.Outcome State Fault Refusal :=
  match r with
  | .okHandle h => .next (s.startOk seq size fcrc h)
  | .err => .next (s.nackReturn seq .noMemory)
  | .ok => .fault .badBackendAnswer
  | .done => .fault .badBackendAnswer

/-! ### DATA (R200 to R204) -/

/-- The flash write of a DATA payload at the running offset (R203). -/
def State.issueWrite (s : State) (seq : U16) (p : List Byte) : State :=
  s.request (.write s.sess.handle s.sess.receivedBytes p) (.dataWrite seq p)

/-- DATA up to `WRITE`, or up to the abort of a header rejection (R200 to R202). -/
def execData (seq : U16) (off : U32) (p : List Byte) (s : State) : Host.Outcome State Fault Refusal :=
  .next <|
    if s.sess.state ≠ .receiving then (s.wrongState seq).finish
    else if seq ≠ s.sess.expectedSequence then s.nackReturn seq .seq
    else if off ≠ s.sess.receivedBytes then s.nackReturn seq .offset
    else if s.sess.imageHeaderChecked then s.issueWrite seq p
    else if imageHeaderOK s.params s.env.lastInvalidVer p then
      State.issueWrite { s with sess := { s.sess with imageHeaderChecked := true } } seq p
    else (s.nack seq .imageInvalid).abortInternal .finished

/-- DATA after `WRITE` answered `OK` (R203): the payload is in flash, the counters advance, ACK, PROGRESS if due. -/
def State.acceptData (s : State) (seq : U16) (p : List Byte) : State :=
  let t := { s with
    image := s.image.writePayload s.sess.receivedBytes p
    sess := { s.sess with
      imageCRC32 := crc32Update s.sess.imageCRC32 p
      receivedBytes := s.sess.receivedBytes + BitVec.ofNat 32 p.length
      expectedSequence := s.sess.expectedSequence + 1 } }
  ((t.ack seq).progress seq).finish

/-- DATA from the answer to `WRITE` on (R200, R203). On `ERR` the image record stays until the abort has been answered
(DESIGN CHOICE, log entry 30: I10 leaves the contents after a write failure at any value). -/
def resumeData (seq : U16) (p : List Byte) (r : BkResp) (s : State) : Host.Outcome State Fault Refusal :=
  match r with
  | .ok => .next (s.acceptData seq p)
  | .err => .next ((s.nack seq .flashWrite).abortInternal .finished)
  | .okHandle _ => .fault .badBackendAnswer
  | .done => .fault .badBackendAnswer

/-! ### END (R210 to R215) -/

/-- END up to `END(h)`, or up to the abort of a failed check (R210 to R212). -/
def execEnd (seq : U16) (_off : U32) (_p : List Byte) (s : State) : Host.Outcome State Fault Refusal :=
  .next <|
    if s.sess.state ≠ .receiving then (s.wrongState seq).finish
    else if s.sess.receivedBytes ≠ s.sess.totalBytes then (s.nack seq .offset).abortInternal .finished
    else if crcMismatch s.params s.sess.imageCRC32 s.sess.firmwareCRC32 then
      (s.nack seq .imageInvalid).abortInternal .finished
    else
      State.request { s with sess := { s.sess with state := .verifying, handleOpen := false } }
        (.endUpdate s.sess.handle) (.endEnd seq)

/-- END from the answer to `END` on (R212, R213). -/
def resumeEnd (seq : U16) (r : BkResp) (s : State) : Host.Outcome State Fault Refusal :=
  match r with
  | .ok => .next (s.request (.setBoot s.sess.handle) (.endSetBoot seq))
  | .err => .next (s.nackReturn seq .imageInvalid)
  | .okHandle _ => .fault .badBackendAnswer
  | .done => .fault .badBackendAnswer

/-- END after `SET_BOOT` answered `OK` (R214). The image record is kept (DESIGN CHOICE, log entry 30). -/
def State.completeTransfer (s : State) (seq : U16) : State :=
  let t := { s with sess := { s.sess with state := .completed } }
  let u := t.emit .complete seq t.sess.receivedBytes emptyPayload
  State.finish { u with eng := { u.eng with halt := .restart } }

/-- END from the answer to `SET_BOOT` on (R213, R214). -/
def resumeSetBoot (seq : U16) (r : BkResp) (s : State) : Host.Outcome State Fault Refusal :=
  match r with
  | .ok => .next (s.completeTransfer seq)
  | .err => .next (s.nackReturn seq .partition)
  | .okHandle _ => .fault .badBackendAnswer
  | .done => .fault .badBackendAnswer

end Sys2Proof.Machine
end

