-- ==== Sys2Proof/Machine/Control.lean ====
section
/-! DEFINITION. The control commands ABORT, QUERY_STATUS and ROLLBACK_REQ (spec/43_commands.md R220 to R233). -/

namespace Sys2Proof.Machine

/-- ABORT (R220): the internal abort, then the ACK with the cleared counters. -/
def execAbort (seq : U16) (_off : U32) (_p : List Byte) (s : State) : Host.Outcome State Fault Refusal :=
  .next (s.abortInternal (.ack seq))

/-- The internal abort from the answer to `ABORT` on (R240): the answer is `DONE`, the handle is released. -/
def resumeAbort (k : AfterAbort) (r : BkResp) (s : State) : Host.Outcome State Fault Refusal :=
  match r with
  | .done => .next (State.endAbort { s with sess := { s.sess with handleOpen := false } } k)
  | .okHandle _ => .fault .badBackendAnswer
  | .ok => .fault .badBackendAnswer
  | .err => .fault .badBackendAnswer

/-- QUERY_STATUS (R225): one STATUS_RESP, no register changed. -/
def execQueryStatus (seq : U16) (_off : U32) (_p : List Byte) (s : State) : Host.Outcome State Fault Refusal :=
  .next (s.emit .statusResp seq s.sess.receivedBytes
    (statusPayload s.sess.state s.sess.lastError s.sess.receivedBytes s.sess.totalBytes s.env.runningVer)).finish

/-- An accepted ROLLBACK_REQ (R232). It issues no backend request, and the image record is kept as it is, here and through
HALT, until the reset that follows empties it. DESIGN CHOICE, unsafe (log entry 30): 93_implementation_defined.md I10 leaves
the update partition's contents after a rollback at any value; the kept record says what the engine wrote, not what the
partition holds. -/
def State.acceptRollback (s : State) (seq : U16) : State :=
  let t := s.ack seq
  State.finish { t with
    sess := { t.sess with state := .rollback }
    eng := { t.eng with halt := .rollback } }

/-- ROLLBACK_REQ (R230 to R232). -/
def execRollbackReq (seq : U16) (_off : U32) (_p : List Byte) (s : State) : Host.Outcome State Fault Refusal :=
  .next <|
    if s.env.runningPart ≠ s.env.bootPart then s.acceptRollback seq
    else s.nackReturn seq .rollbackFailed

end Sys2Proof.Machine
end

