-- ==== Sys2Proof/Machine/Replies.lean ====
section
/-! DEFINITION. The seven device-to-host codes received from the host (spec/43_commands.md R235, 44_replies.md head): "The
engine never executes them: received with one of these codes, a frame is answered `NACK(UNKNOWN)`". A definition of its own
for each, over one shared operation. -/

namespace Sys2Proof.Machine

/-- A reserved or device-to-host command code (R235): `nack(fr.sequence, UNKNOWN)`, nothing else. -/
def State.unknownCommand (s : State) (seq : U16) : State := s.nackReturn seq .unknown

/-- `ACK` received (R235). -/
def execAck (seq : U16) (_off : U32) (_p : List Byte) (s : State) : Host.Outcome State Fault Refusal :=
  .next (s.unknownCommand seq)

/-- `NACK` received (R235). -/
def execNack (seq : U16) (_off : U32) (_p : List Byte) (s : State) : Host.Outcome State Fault Refusal :=
  .next (s.unknownCommand seq)

/-- `READY` received (R235). -/
def execReady (seq : U16) (_off : U32) (_p : List Byte) (s : State) : Host.Outcome State Fault Refusal :=
  .next (s.unknownCommand seq)

/-- `PROGRESS` received (R235). -/
def execProgress (seq : U16) (_off : U32) (_p : List Byte) (s : State) : Host.Outcome State Fault Refusal :=
  .next (s.unknownCommand seq)

/-- `COMPLETE` received (R235). -/
def execComplete (seq : U16) (_off : U32) (_p : List Byte) (s : State) : Host.Outcome State Fault Refusal :=
  .next (s.unknownCommand seq)

/-- `ERROR` received (R235, R267). -/
def execError (seq : U16) (_off : U32) (_p : List Byte) (s : State) : Host.Outcome State Fault Refusal :=
  .next (s.unknownCommand seq)

/-- `STATUS_RESP` received (R235). -/
def execStatusResp (seq : U16) (_off : U32) (_p : List Byte) (s : State) : Host.Outcome State Fault Refusal :=
  .next (s.unknownCommand seq)

end Sys2Proof.Machine
end

