-- ==== Sys2Proof/Machine/Dispatch.lean ====
section
/-! DEFINITION. The meaning of each instruction: the choice of the rule by the command (spec/43_commands.md R190). Each rule
runs up to its first backend request or its end; Machine/Driver.lean resumes it (45_driver.md R281, R282). -/

namespace Sys2Proof.Machine

def exec (i : Instr) (s : State) : Host.Outcome State Fault Refusal :=
  match i with
  | .start seq off p => Sys2Proof.Machine.execStart seq off p s
  | .data seq off p => Sys2Proof.Machine.execData seq off p s
  | .endTransfer seq off p => Sys2Proof.Machine.execEnd seq off p s
  | .abort seq off p => Sys2Proof.Machine.execAbort seq off p s
  | .queryStatus seq off p => Sys2Proof.Machine.execQueryStatus seq off p s
  | .rollbackReq seq off p => Sys2Proof.Machine.execRollbackReq seq off p s
  | .ack seq off p => Sys2Proof.Machine.execAck seq off p s
  | .nack seq off p => Sys2Proof.Machine.execNack seq off p s
  | .ready seq off p => Sys2Proof.Machine.execReady seq off p s
  | .progress seq off p => Sys2Proof.Machine.execProgress seq off p s
  | .complete seq off p => Sys2Proof.Machine.execComplete seq off p s
  | .error seq off p => Sys2Proof.Machine.execError seq off p s
  | .statusResp seq off p => Sys2Proof.Machine.execStatusResp seq off p s

end Sys2Proof.Machine
end

