-- ==== Sys2Proof/Machine/Driver.lean ====
section
/-! DEFINITION. The engine's step relation (spec/45_driver.md): one transition per phase (R280 to R285), the resumption of a
command rule (R282), reset (70_reset_and_hazards.md R340), and the environment's part between two steps (log entry 5). -/

namespace Sys2Proof.Machine

/-- `rst` asserted (R340): every piece of the engine's state takes its reset value. The parameters are fixed, the ports are
the environment's: the reset event is consumed, and the answer to an abandoned request is never read (R342, log entries 7
and 22). -/
def State.resetStep (s : State) : State :=
  { State.reset with
    params := s.params
    env := { s.env with
      rst := false
      bkResp := if s.eng.phase = .exec ∧ s.eng.cont.isSome then s.env.bkResp.tail else s.env.bkResp }
    later := s.later
    out := s.out }

/-- Phase SCAN (R280): a byte offered is taken; with none offered the engine takes no step. -/
def State.scanStep (s : State) : State :=
  match s.env.rx with
  | [] => s
  | b :: rest => State.rxStep { s with env := { s.env with rx := rest } } b

/-- Phase EXEC, first step (R281): decode `E.cur`; drop it, or run the command rule up to its first backend request. -/
def State.startFrame (s : State) : Host.Outcome State Fault Refusal :=
  match decode s.eng.cur with
  | .bad e => .next (s.drop e.reason)
  | .reserved fr => .next (s.unknownCommand fr.sequence)
  | .instr i => exec i s

/-- The command rule resumed with its answer bound (R282). -/
def resume (k : Cont) (r : BkResp) (s : State) : Host.Outcome State Fault Refusal :=
  match k with
  | .startBegin seq size fcrc => resumeStart seq size fcrc r s
  | .dataWrite seq p => resumeData seq p r s
  | .endEnd seq => resumeEnd seq r s
  | .endSetBoot seq => resumeSetBoot seq r s
  | .abortDone k => resumeAbort k r s

/-- The answer on `bk_resp` taken: no request is outstanding any more. -/
def State.takeAnswer (s : State) : State :=
  { s with
    eng := { s.eng with cont := none }
    env := { s.env with bkResp := s.env.bkResp.tail } }

/-- Phase EXEC, a request outstanding (R282, 20_memory.md R66): with no answer present the engine takes no step. -/
def State.awaitAnswer (s : State) (pd : Pending) : Host.Outcome State Fault Refusal :=
  match s.env.bkResp with
  | [] => .next s
  | r :: _ => resume pd.cont r s.takeAnswer

/-- Where the engine goes when `E.txq` has become empty (R285). -/
def phaseAfterTx : HaltReq → Phase
  | .noHalt => .scan
  | .restart => .halt
  | .rollback => .halt

/-- Phase TX (R284, R285): one byte sent when the sink takes it. -/
def State.txStep (s : State) : Host.Outcome State Fault Refusal :=
  if s.env.txReady then
    match s.eng.txq with
    | [] => .fault .nothingToSend
    | b :: rest =>
      .next { s with
        eng := { s.eng with
          txq := rest
          phase := if rest = [] then phaseAfterTx s.eng.halt else .tx }
        out := { s.out with tx := s.out.tx ++ [b] } }
  else .next s

/-- One transition of the engine under the present levels of its ports (R287). -/
def State.transition (s : State) : Host.Outcome State Fault Refusal :=
  if s.env.rst then .next s.resetStep
  else
    match s.eng.phase with
    | .scan => .next s.scanStep
    | .exec =>
      match s.eng.cont with
      | none => s.startFrame
      | some pd => s.awaitAnswer pd
    | .tx => s.txStep
    | .halt => .next s

/-- The environment's part before the next step: the next entry of `later`. -/
def State.advance (s : State) : State :=
  match s.later with
  | [] => s
  | none :: rest => { s with later := rest }
  | some e :: rest => { s with env := e, later := rest }

/-- A transition, then the environment's part. -/
def driverStep (s : State) : Host.Outcome State Fault Refusal :=
  match s.transition with
  | .next t => .next t.advance
  | .fault f => .fault f
  | .refused r => .refused r

/-- The frame placed where the framer puts an extracted frame, so that the next step decodes and runs it (R281); log
entry 16. -/
def State.placeFrame (s : State) (f : List Byte) : State :=
  { s with
    eng := { s.eng with phase := .exec, cur := f, cont := none }
    env := { s.env with rst := false } }

end Sys2Proof.Machine
end

