-- ==== Sys2Proof/Machine/Ports.lean ====
section
/-! DEFINITION. The output ports as functions of the state (spec/10_state.md R38, R40). -/

namespace Sys2Proof.Machine

/-- `rx_ready = (E.phase = SCAN)`. -/
def State.rxReady (s : State) : Bool := decide (s.eng.phase = .scan)

/-- `tx_valid = (E.phase = TX)`. -/
def State.txValid (s : State) : Bool := decide (s.eng.phase = .tx)

/-- `tx_data = E.txq[0]`. -/
def State.txData (s : State) : Option Byte := s.eng.txq.head?

/-- `bk_req`: the outstanding request. -/
def State.bkReq (s : State) : Option BkReq :=
  if s.eng.phase = .exec then s.eng.cont.map (·.req) else none

/-- `restart_req`. -/
def State.restartReq (s : State) : Bool := decide (s.eng.phase = .halt ∧ s.eng.halt = .restart)

/-- `rollback_req`. -/
def State.rollbackReq (s : State) : Bool := decide (s.eng.phase = .halt ∧ s.eng.halt = .rollback)

end Sys2Proof.Machine
end

