-- ==== Sys2Proof/Machine/Step.lean ====
section
/-! DEFINITION. The step of the machine (spec/45_driver.md R287), and the placing of an instruction where it runs next. -/

namespace Sys2Proof.Machine

/-- One step: the transition of the present phase under the present port levels, or reset. -/
def step (s : State) : Host.Outcome State Fault Refusal := driverStep s

/-- `s` with the instruction of `nbits` bits `w` extracted and about to run (log entries 15 and 16). -/
def State.withFetchWord (s : State) (nbits w : Nat) : State := s.placeFrame (tableFrame nbits w)

end Sys2Proof.Machine
end

