-- ==== Sys2Proof/Safety.lean ====
section
/-! DEFINITION. What counts as a good state of the engine, in the terms the statements use: the invariants of
spec/10_state.md R34, 42_framer.md R166, 45_driver.md R286 and 10_state.md R37, the answers the backend may give
(10_state.md R41), and the states a NACK leads to. -/

namespace Sys2Proof.Machine

/-! ### The framer (42_framer.md R166) -/

/-- `f` starts with the opening marker. -/
abbrev StartsWithMarker (f : List Byte) : Prop := byteAt f 0 = 0xAA#8 ∧ byteAt f 1 = 0x55#8

/-- What `F.buf` may hold between two received bytes: `[]`, `[0xAA]`, or a marker with an incomplete header or an
incomplete frame of legal length (R166). -/
abbrev FramerRest (buf : List Byte) : Prop :=
  buf = [] ∨ buf = [0xAA#8] ∨
    (2 ≤ buf.length ∧ StartsWithMarker buf ∧
      (buf.length < 12 ∨ ((le16 buf 10).toNat ≤ 1024 ∧ buf.length < 16 + (le16 buf 10).toNat)))

/-- What the framer extracts: 16 + N bytes with N at most 1024, starting at a marker (R165). -/
abbrev Candidate (f : List Byte) : Prop :=
  StartsWithMarker f ∧ (le16 f 10).toNat ≤ 1024 ∧ f.length = 16 + (le16 f 10).toNat

/-! ### The session registers (10_state.md R34) -/

/-- The registers R34 (c) names are at their cleared values. -/
abbrev Session.isCleared (r : Session) : Prop :=
  r.totalBytes = 0 ∧ r.receivedBytes = 0 ∧ r.expectedSequence = 0 ∧ r.imageHeaderChecked = false ∧
    r.imageCRC32 = 0xFFFFFFFF#32 ∧ r.progressDecile = 0

/-- The invariants (a) to (d) of R34. -/
abbrev Session.Inv (r : Session) : Prop :=
  (r.state = .receiving → r.handleOpen = true) ∧
  (r.handleOpen = true → r.state = .receiving ∨ r.state = .rollback) ∧
  (r.state ≠ .waitingStart ∧ r.state ≠ .applying) ∧
  (r.state = .idle ∨ r.state = .error → r.isCleared) ∧
  (r.state = .receiving → r.receivedBytes ≠ 0 → r.imageHeaderChecked = true)

/-! ### The control state -/

/-- What holds while a request is outstanding: the request is the one its rule issues, from the registers as they are,
and the session is where the rule left it (43_commands.md R192 to R240). -/
def Pending.Inv (pd : Pending) (s : State) : Prop :=
  match pd.cont with
  | .startBegin _ size _ =>
    pd.req = .beginUpdate size ∧ s.eng.txq = [] ∧ (s.sess.state = .idle ∨ s.sess.state = .error)
  | .dataWrite _ p =>
    pd.req = .write s.sess.handle s.sess.receivedBytes p ∧ s.eng.txq = [] ∧ s.sess.state = .receiving ∧
      s.sess.imageHeaderChecked = true ∧ p.length ≤ 1024
  | .endEnd _ => pd.req = .endUpdate s.sess.handle ∧ s.eng.txq = [] ∧ s.sess.state = .verifying
  | .endSetBoot _ => pd.req = .setBoot s.sess.handle ∧ s.eng.txq = [] ∧ s.sess.state = .verifying
  | .abortDone .finished =>
    pd.req = .abortUpdate s.sess.handle ∧ s.eng.txq.length = 23 ∧ s.sess.handleOpen = true
  | .abortDone (.ack _) =>
    pd.req = .abortUpdate s.sess.handle ∧ s.eng.txq = [] ∧ s.sess.handleOpen = true

/-- What each phase implies (45_driver.md R280 to R286, 42_framer.md R166). -/
def State.PhaseInv (s : State) : Prop :=
  match s.eng.phase with
  | .scan => s.eng.txq = [] ∧ s.eng.halt = .noHalt ∧ s.eng.cont = none ∧ FramerRest s.fbuf
  | .exec =>
    s.eng.halt = .noHalt ∧ s.fbuf = [] ∧ Candidate s.eng.cur ∧
      match s.eng.cont with
      | none => s.eng.txq = []
      | some pd => pd.Inv s
  | .tx => s.eng.txq ≠ [] ∧ s.eng.cont = none ∧ s.fbuf = []
  | .halt => s.eng.txq = [] ∧ s.eng.halt ≠ .noHalt ∧ s.eng.cont = none ∧ s.fbuf = []

/-- The halt request and the terminal states belong together (43_commands.md R214, R232, R242). -/
abbrev State.HaltInv (s : State) : Prop :=
  (s.eng.halt = .restart ↔ s.sess.state = .completed) ∧ (s.eng.halt = .rollback ↔ s.sess.state = .rollback)

/-- The invariant of the machine. -/
def State.Inv (s : State) : Prop :=
  s.sess.Inv ∧ s.PhaseInv ∧ s.HaltInv ∧ s.eng.txq.length ≤ 58 ∧ s.image.wf ∧
    (s.sess.state = .idle ∨ s.sess.state = .error → s.image = [])

/-! ### The environment -/

/-- The answers 10_state.md R41 lists for a request. -/
def BkReq.admits : BkReq → BkResp → Bool
  | .beginUpdate _, .okHandle _ => true
  | .beginUpdate _, .err => true
  | .write _ _ _, .ok => true
  | .write _ _ _, .err => true
  | .endUpdate _, .ok => true
  | .endUpdate _, .err => true
  | .setBoot _, .ok => true
  | .setBoot _, .err => true
  | .abortUpdate _, .done => true
  | _, _ => false

/-- The environment keeps R41 in the present step: an answer to the outstanding request, if there is one, is of a kind
the request admits. -/
abbrev State.AnswerFits (s : State) : Prop :=
  ∀ q, s.bkReq = some q → ∀ a, s.env.bkResp.head? = some a → q.admits a = true

/-- The environment does nothing of its own after this step: no reset now, no entry of `later`. -/
abbrev State.Undisturbed (s : State) : Prop := s.env.rst = false ∧ s.later = []

/-! ### What a command leaves -/

/-- `s` with one reply queued and the rule ended: the frame of code `code`, the request's sequence, `S.receivedBytes` as
its offset (44_replies.md R272). -/
def State.replied (s : State) (code : Byte) (seq : U16) (payload : List Byte) : State :=
  { s with
    eng := { s.eng with
      txq := s.eng.txq ++ encodeFrame code seq s.sess.receivedBytes payload
      phase := .tx
      cont := none } }

/-- `s` after a failure that aborts nothing: `S.lastError` set, one NACK queued, everything else as it was
(44_replies.md R255, 60_exceptions.md R304). -/
def State.nacked (s : State) (seq : U16) (cause : ErrorCode) (code : Byte) : State :=
  State.replied { s with sess := { s.sess with lastError := cause } } 0x82#8 seq
    ([code] ++ bytes16 s.sess.expectedSequence ++ bytes32 s.sess.receivedBytes)

/-- The session registers after the internal abort (43_commands.md R240, R241). -/
def Session.aborted (r : Session) : Session :=
  ⟨.idle, r.lastError, 0, 0, 0, 0, false, false, r.handle, 0xFFFFFFFF#32, 0⟩

/-- `s` while a request is outstanding: on `bk_req`, recorded as issued, the phase EXEC (20_memory.md R66). -/
def State.waiting (s : State) (q : BkReq) (k : Cont) : State :=
  { s with
    eng := { s.eng with phase := .exec, cont := some ⟨q, k⟩ }
    out := { s.out with reqs := s.out.reqs ++ [q] } }

/-! ### Runs -/

/-- `n` steps, up to the first fault or refusal. -/
def run : Nat → State → Host.Outcome State Fault Refusal
  | 0, s => .next s
  | n + 1, s =>
    match step s with
    | .next t => run n t
    | .fault f => .fault f
    | .refused r => .refused r

/-- No reset now and none to come (70_reset_and_hazards.md R340). -/
abbrev State.NeverReset (s : State) : Prop := s.env.rst = false ∧ ∀ e, some e ∈ s.later → e.rst = false

/-- The `WRITE` requests of a list continue one another from offset `o` on: `o`, `o + n_0`, `o + n_0 + n_1`, ...
(20_memory.md R70). -/
def WritesContinue : U32 → List BkReq → Prop
  | _, [] => True
  | o, .write _ off d :: r => off = o ∧ WritesContinue (o + BitVec.ofNat 32 d.length) r
  | o, .beginUpdate _ :: r => WritesContinue o r
  | o, .endUpdate _ :: r => WritesContinue o r
  | o, .abortUpdate _ :: r => WritesContinue o r
  | o, .setBoot _ :: r => WritesContinue o r

end Sys2Proof.Machine
end

