-- ==== Sys2Proof/Certificates/Slice0/Obligations.lean ====
section
/-! DEFINITION. The statements for the provers, in the order of spec/: the codec, the framer, the driver, the commands, the
whole machine. OBLIGATIONS.json lists them; the witnesses of their hypotheses stand in Tests/Slice0.lean.

Three things in them are the model's and no rule of spec/: the record of the output ports `out` (log entry 13), the queue of
the backend's answers `env.bkResp` with the environment's part `advance` (log entries 1, 5, 7), and the image record: empty
after a session clear (log entry 11), kept after an accepted ROLLBACK_REQ, after END, in HALT and until a failed command's
abort is answered (log entry 30: 93_implementation_defined.md I10 leaves those contents open). -/

section

open Sys2Proof Sys2Proof.Machine

/-! ### The codec (spec/30_encoding.md, 40_crc.md, 41_codec.md) -/

/-- Decoding an encoded well-formed instruction gives it back, every operand at every value (R152, R104). -/
def Obligations.DecodeEncodeRoundTrip : Prop :=
  ∀ i : Instr, i.wf = true → decode (encode i) = .instr i

/-- R152: the round trip for every command byte, and its example. -/
def Obligations.FrameRoundTrip : Prop :=
  (∀ (cmd : Byte) (seq : U16) (off : U32) (p : List Byte), p.length ≤ 1024 →
    decodeFrame (encodeFrame cmd seq off p) = .frame ⟨cmd, seq, off, BitVec.ofNat 16 p.length, p⟩) ∧
  encodeFrame 0x02#8 1#16 1024#32 [0x01#8, 0x02#8, 0x03#8] =
    [0xAA#8, 0x55#8, 0x01#8, 0x02#8, 0x01#8, 0x00#8, 0x00#8, 0x04#8, 0x00#8, 0x00#8, 0x03#8, 0x00#8, 0x01#8, 0x02#8,
      0x03#8, 0x9B#8, 0x9D#8, 0x55#8, 0xAA#8]

/-- No byte string but its encoding decodes to an instruction, or to a frame (R140, R150). -/
def Obligations.DecodedBytesAreTheEncoding : Prop :=
  (∀ (f : List Byte) (i : Instr), decode f = .instr i → f = encode i) ∧
  (∀ (f : List Byte) (fr : Frame), decodeFrame f = .frame fr →
    f = encodeFrame fr.command fr.sequence fr.offset fr.payload ∧ fr.length.toNat = fr.payload.length)

/-- R80: the place and the value of every field of a frame. -/
def Obligations.EncodedFieldPositions : Prop :=
  ∀ (cmd : Byte) (seq : U16) (off : U32) (p : List Byte), p.length ≤ 1024 →
    let f := encodeFrame cmd seq off p
    let n := p.length
    f.length = 16 + n ∧
    byteAt f 0 = 0xAA#8 ∧ byteAt f 1 = 0x55#8 ∧ byteAt f 2 = 0x01#8 ∧ byteAt f 3 = cmd ∧
    le16 f 4 = seq ∧ le32 f 6 = off ∧ (le16 f 10).toNat = n ∧ slice f 12 (12 + n) = p ∧
    le16 f (12 + n) = crc16 (slice f 0 (12 + n)) ∧ byteAt f (14 + n) = 0x55#8 ∧ byteAt f (15 + n) = 0xAA#8

/-- R12, R62: the value of a little-endian field, and that writing one and reading it gives it back. -/
def Obligations.FieldsAreLittleEndian : Prop :=
  (∀ (b : List Byte) (i : Nat), (le16 b i).toNat = (byteAt b i).toNat + 2 ^ 8 * (byteAt b (i + 1)).toNat) ∧
  (∀ (b : List Byte) (i : Nat),
    (le32 b i).toNat =
      (byteAt b i).toNat + 2 ^ 8 * (byteAt b (i + 1)).toNat + 2 ^ 16 * (byteAt b (i + 2)).toNat +
        2 ^ 24 * (byteAt b (i + 3)).toNat) ∧
  (∀ v : U16, le16 (bytes16 v) 0 = v) ∧ (∀ v : U32, le32 (bytes32 v) 0 = v)

/-- R140: a frame of another version is UNSUPPORTED_VERSION with a good CRC and CRC_MISMATCH with a bad one. -/
def Obligations.VersionIsCheckedAfterTheCrc : Prop :=
  ∀ (ver cmd : Byte) (seq : U16) (off : U32) (p : List Byte) (crc : U16), p.length ≤ 1024 → ver ≠ 0x01#8 →
    decodeFrame (frameBody ver cmd seq off p ++ bytes16 crc ++ [0x55#8, 0xAA#8]) =
      .bad (if crc = crc16 (frameBody ver cmd seq off p) then .unsupportedVersion else .crcMismatch)

/-- A frame with any one byte replaced by another value never decodes; the error is that of the field hit (R140). -/
def Obligations.OneCorruptedByteNeverDecodes : Prop :=
  ∀ (cmd : Byte) (seq : U16) (off : U32) (p : List Byte) (k : Nat) (v : Byte),
    p.length ≤ 1024 → k < 16 + p.length → v ≠ byteAt (encodeFrame cmd seq off p) k →
      decodeFrame ((encodeFrame cmd seq off p).set k v) =
        .bad (if k < 2 ∨ 14 + p.length ≤ k then .markersInvalid
          else if k = 10 ∨ k = 11 then .lengthMismatch else .crcMismatch)

/-- R120, R123: a change of one byte changes the CRC-16. -/
def Obligations.Crc16SeesOneChangedByte : Prop :=
  ∀ (a b : List Byte) (x y : Byte), x ≠ y → crc16 (a ++ x :: b) ≠ crc16 (a ++ y :: b)

/-- R121, R126: the streaming forms; R123, R128: the check values, the 256-byte one apart. -/
def Obligations.CrcStreamingAndCheckValues : Prop :=
  (∀ d0 d1 : List Byte, crc16Feed (crc16Feed 0xFFFF#16 d0) d1 = crc16 (d0 ++ d1)) ∧
  (∀ (c : U32) (d0 d1 : List Byte), crc32Update (crc32Update c d0) d1 = crc32Update c (d0 ++ d1)) ∧
  (∀ d : List Byte, crc32 d = crc32Update 0xFFFFFFFF#32 d ^^^ 0xFFFFFFFF#32) ∧
  crc16 [] = 0xFFFF#16 ∧ crc16 [0x00#8] = 0xE1F0#16 ∧ crc16 [0xFF#8] = 0xFF00#16 ∧
  crc16 [0x31#8, 0x32#8, 0x33#8, 0x34#8, 0x35#8, 0x36#8, 0x37#8, 0x38#8, 0x39#8] = 0x29B1#16 ∧
  crc16 [0xAA#8, 0x55#8] = 0xE5EA#16 ∧
  crc32 [] = 0x00000000#32 ∧ crc32 [0x00#8] = 0xD202EF8D#32 ∧ crc32 [0xFF#8] = 0xFF000000#32 ∧
  crc32 [0x41#8] = 0xD3D99E8B#32 ∧
  crc32 [0x31#8, 0x32#8, 0x33#8, 0x34#8, 0x35#8, 0x36#8, 0x37#8, 0x38#8, 0x39#8] = 0xCBF43926#32

/-- R105, R258, R265: frames spelled out by the spec decode to the instructions they stand for. -/
def Obligations.SpelledOutFramesDecode : Prop :=
  decode [0xAA#8, 0x55#8, 0x01#8, 0x05#8, 0x34#8, 0x12#8, 0xEF#8, 0xBE#8, 0xAD#8, 0xDE#8, 0x00#8, 0x00#8, 0x34#8, 0xC1#8,
    0x55#8, 0xAA#8] = .instr (.queryStatus 0x1234#16 0xDEADBEEF#32 []) ∧
  decode [0xAA#8, 0x55#8, 0x01#8, 0x83#8, 0x03#8, 0x00#8, 0x00#8, 0x00#8, 0x00#8, 0x00#8, 0x00#8, 0x00#8, 0x9A#8, 0xF0#8,
    0x55#8, 0xAA#8] = .instr (.ready 3#16 0#32 []) ∧
  decode [0xAA#8, 0x55#8, 0x01#8, 0x02#8, 0x01#8, 0x00#8, 0x00#8, 0x04#8, 0x00#8, 0x00#8, 0x03#8, 0x00#8, 0x01#8, 0x02#8,
    0x03#8, 0x9B#8, 0x9D#8, 0x55#8, 0xAA#8] = .instr (.data 1#16 1024#32 [0x01#8, 0x02#8, 0x03#8])

/-- R84: the thirteen command codes, as written by `encode` and as read by the decoder; R85: every other byte is reserved. -/
def Obligations.CommandCodes : Prop :=
  (∀ e ∈ ([(.start, .start, 0x01#8), (.data, .data, 0x02#8), (.endTransfer, .endTransfer, 0x03#8),
      (.abort, .abort, 0x04#8), (.queryStatus, .queryStatus, 0x05#8), (.rollbackReq, .rollbackReq, 0x06#8),
      (.ack, .ack, 0x81#8), (.nack, .nack, 0x82#8), (.ready, .ready, 0x83#8), (.progress, .progress, 0x84#8),
      (.complete, .complete, 0x85#8), (.error, .error, 0x86#8), (.statusResp, .statusResp, 0x87#8)] :
      List ((U16 → U32 → List Byte → Instr) × Opcode × Byte)),
    e.2.1.code = e.2.2 ∧ opcodeOf e.2.2 = some e.2.1 ∧
    ∀ seq off p, (e.1 seq off p).opcode = e.2.1 ∧ encode (e.1 seq off p) = encodeFrame e.2.2 seq off p) ∧
  (∀ o : Opcode, opcodeOf o.code = some o) ∧
  (∀ b : Byte, opcodeOf b = none ↔
    b = 0x00#8 ∨ (0x07#8 ≤ b ∧ b ≤ 0x80#8) ∨ 0x88#8 ≤ b)

/-! ### The framer (spec/42_framer.md) -/

/-- R161: `findMarker` answers the least position of the pair AA 55, or none. -/
def Obligations.FindMarkerIsTheLeast : Prop :=
  ∀ buf : List Byte,
    (∀ p, findMarker buf = some p ↔
      p + 1 < buf.length ∧ byteAt buf p = 0xAA#8 ∧ byteAt buf (p + 1) = 0x55#8 ∧
        ∀ j < p, ¬(byteAt buf j = 0xAA#8 ∧ byteAt buf (j + 1) = 0x55#8)) ∧
    (findMarker buf = none ↔
      ∀ j, j + 1 < buf.length → ¬(byteAt buf j = 0xAA#8 ∧ byteAt buf (j + 1) = 0x55#8))

/-- R162: `scan` meets the loop of the rule, turn by turn. -/
def Obligations.ScanIsTheLoop : Prop :=
  ∀ buf : List Byte,
    scan buf =
      match findMarker buf with
      | none => ⟨if buf.getLast? = some 0xAA#8 then [0xAA#8] else [], none, []⟩
      | some p =>
        let b := buf.drop p
        let l := (le16 b 10).toNat
        if b.length < 12 then ⟨b, none, []⟩
        else if 1024 < l then
          ⟨(scan (b.drop 2)).buf, (scan (b.drop 2)).frame, .frameInvalid :: (scan (b.drop 2)).drops⟩
        else if b.length < 12 + l + 4 then ⟨b, none, []⟩
        else ⟨b.drop (12 + l + 4), some (b.take (12 + l + 4)), []⟩

/-- R166: what a receive step leaves in the buffer, and the capacity. -/
def Obligations.FramerCapacity : Prop :=
  FramerRest [] ∧
  ∀ (buf : List Byte) (b : Byte), FramerRest buf →
    buf.length ≤ 1039 ∧ (buf ++ [b]).length ≤ 1040 ∧
    ((scan (buf ++ [b])).frame = none → FramerRest (scan (buf ++ [b])).buf) ∧
    (∀ f, (scan (buf ++ [b])).frame = some f → (scan (buf ++ [b])).buf = [] ∧ f = buf ++ [b] ∧ Candidate f)

/-- R167: the scan needs no more turns than the buffer has bytes, and each dropped marker removes two of them. -/
def Obligations.ScanNeverStalls : Prop :=
  ∀ buf : List Byte,
    (∀ n, buf.length < n → scanLoop n buf = scan buf) ∧
    2 * (scan buf).drops.length + (scan buf).buf.length + ((scan buf).frame.getD []).length ≤ buf.length

/-- R168: chunked operation and byte-at-a-time operation give the same frames, drops and buffer. -/
def Obligations.ChunksFrameLikeBytes : Prop :=
  ∀ (buf : List Byte) (chunks : List (List Byte)), FramerRest buf →
    feedChunks buf chunks = feedBytes buf chunks.flatten

/-- R169: noise without a marker before a frame costs nothing: exactly that frame is extracted. -/
def Obligations.NoiseThenFrame : Prop :=
  ∀ (buf noise : List Byte) (cmd : Byte) (seq : U16) (off : U32) (p : List Byte), p.length ≤ 1024 →
    buf = [] ∨ buf = [0xAA#8] → findMarker (buf ++ noise) = none →
      feedBytes buf (noise ++ encodeFrame cmd seq off p) = ⟨[], [encodeFrame cmd seq off p], []⟩

/-! ### The driver (spec/45_driver.md, 70_reset_and_hazards.md) -/

/-- R281: where the frame in `E.cur` decodes to an instruction, the step is that instruction's meaning, then the
environment's part. -/
def Obligations.StepRunsTheDecodedInstruction : Prop :=
  ∀ (s : State) (i : Instr), s.env.rst = false → s.eng.phase = .exec → s.eng.cont = none →
    decode s.eng.cur = .instr i →
      step s =
        match exec i s with
        | .next t => .next t.advance
        | .fault f => .fault f
        | .refused r => .refused r

/-- The bytes of an instruction's frame, offered to an engine at rest, are taken in as many steps as there are bytes, and
the next step runs that instruction (R160, R288). -/
def Obligations.FrameBytesRunTheInstruction : Prop :=
  ∀ (s : State) (i : Instr) (rest : List Byte), i.wf = true → s.Undisturbed → s.eng.phase = .scan →
    s.fbuf = [] ∨ s.fbuf = [0xAA#8] → s.env.rx = encode i ++ rest →
      let t : State :=
        { s with
          fbuf := []
          eng := { s.eng with phase := .exec, cur := encode i, cont := none }
          env := { s.env with rx := rest } }
      run (encode i).length s = .next t ∧ step t = exec i t

/-- R300, R141: a frame that does not decode is dropped: one `ev_drop` with the reason of the error, and the engine goes
back to taking bytes; nothing else. -/
def Obligations.UndecodableFrameIsDropped : Prop :=
  ∀ (s : State) (e : DecodeError), s.env.rst = false → s.eng.phase = .exec → s.eng.cont = none →
    decode s.eng.cur = .bad e →
      step s = .next (State.advance
        { s with
          eng := { s.eng with phase := .scan }
          out := { s.out with drops := s.out.drops ++
            [match e with
              | .tooShort => .frameInvalid
              | .markersInvalid => .frameInvalid
              | .lengthMismatch => .frameInvalid
              | .crcMismatch => .crc
              | .unsupportedVersion => .version] } })

/-- R235, R85: a frame with a reserved command code is answered `NACK(UNKNOWN)`, nothing else. -/
def Obligations.ReservedCodeIsNacked : Prop :=
  ∀ (s : State) (fr : Frame), s.env.rst = false → s.eng.phase = .exec → s.eng.cont = none →
    decodeFrame s.eng.cur = .frame fr →
    fr.command = 0x00#8 ∨ (0x07#8 ≤ fr.command ∧ fr.command ≤ 0x80#8) ∨ 0x88#8 ≤ fr.command →
      step s = .next (s.nacked fr.sequence .unknown 15#8).advance

/-- R160, R280: a byte offered in SCAN is taken and the scan run. -/
def Obligations.ReceiveStep : Prop :=
  ∀ (s : State) (b : Byte) (rest : List Byte), s.env.rst = false → s.eng.phase = .scan → s.env.rx = b :: rest →
    let r := scan (s.fbuf ++ [b])
    let t : State :=
      { s with
        fbuf := r.buf
        env := { s.env with rx := rest }
        out := { s.out with drops := s.out.drops ++ r.drops } }
    (r.frame = none → step s = .next t.advance) ∧
    (∀ f, r.frame = some f →
      step s = .next (State.advance { t with eng := { t.eng with phase := .exec, cur := f, cont := none } }))

/-- R280, R66, R284, R285: with no byte offered, no answer, a sink that does not take the byte, or halted, the engine does
nothing: only the environment's part happens. -/
def Obligations.EngineWaits : Prop :=
  ∀ s : State, s.env.rst = false →
    (s.eng.phase = .scan ∧ s.env.rx = []) ∨ (s.eng.phase = .exec ∧ s.eng.cont ≠ none ∧ s.env.bkResp = []) ∨
      (s.eng.phase = .tx ∧ s.env.txReady = false) ∨ s.eng.phase = .halt →
    step s = .next s.advance

/-- R284, R285: one byte sent, and the phase after it. -/
def Obligations.TransmitStep : Prop :=
  ∀ (s : State) (b : Byte) (rest : List Byte), s.env.rst = false → s.eng.phase = .tx → s.env.txReady = true →
    s.eng.txq = b :: rest →
      step s = .next (State.advance
        { s with
          eng := { s.eng with
            txq := rest
            phase := if rest ≠ [] then .tx else if s.eng.halt = .noHalt then .scan else .halt }
          out := { s.out with tx := s.out.tx ++ [b] } })

/-- R284, R285, R288: a queue of `n` bytes is sent in order in `n` steps, and nothing else changes. -/
def Obligations.QueueIsSentInOrder : Prop :=
  ∀ s : State, s.Undisturbed → s.eng.phase = .tx → s.env.txReady = true → s.eng.txq ≠ [] →
    run s.eng.txq.length s = .next
      { s with
        eng := { s.eng with txq := [], phase := if s.eng.halt = .noHalt then .scan else .halt }
        out := { s.out with tx := s.out.tx ++ s.eng.txq } }

/-- R343, R285, R38: a halted engine stays as it is until reset: it takes no byte, offers none, has no backend request out,
and asserts `restart_req` or `rollback_req`, whichever its halt asks for. (That the image record is kept is the model's
choice, log entry 30.) -/
def Obligations.HaltIsLeftOnlyByReset : Prop :=
  ∀ (n : Nat) (s : State), s.NeverReset → s.eng.phase = .halt →
    ∃ t, run n s = .next t ∧ t.eng = s.eng ∧ t.sess = s.sess ∧ t.fbuf = s.fbuf ∧ t.image = s.image ∧ t.out = s.out ∧
      t.restartReq = s.restartReq ∧ t.rollbackReq = s.rollbackReq ∧
      t.rxReady = false ∧ t.txValid = false ∧ t.bkReq = none ∧
      (t.restartReq = true ↔ s.eng.halt = .restart) ∧ (t.rollbackReq = true ↔ s.eng.halt = .rollback)

/-- R340 to R342: a reset in any state. The values of R341; the parameters, the ports' levels and the record of the outputs
stay; the answer to an abandoned request is never read (its removal from the queue is the model's: log entry 7). -/
def Obligations.ResetStep : Prop :=
  ∀ s : State, s.env.rst = true →
    ∃ u : State, step s = .next u.advance ∧
      u.sess.state = .idle ∧ u.sess.lastError = .noError ∧ u.sess.totalBytes = 0 ∧ u.sess.receivedBytes = 0 ∧
      u.sess.firmwareCRC32 = 0 ∧ u.sess.expectedSequence = 0 ∧ u.sess.imageHeaderChecked = false ∧
      u.sess.handleOpen = false ∧ u.sess.imageCRC32 = 0xFFFFFFFF#32 ∧ u.sess.progressDecile = 0 ∧ u.fbuf = [] ∧
      u.eng.phase = .scan ∧ u.eng.txq = [] ∧ u.eng.halt = .noHalt ∧
      u.rxReady = true ∧ u.txValid = false ∧ u.bkReq = none ∧ u.restartReq = false ∧ u.rollbackReq = false ∧
      u.params = s.params ∧ u.out = s.out ∧ u.later = s.later ∧
      u.env = { s.env with
        rst := false
        bkResp := if s.eng.phase = .exec ∧ s.eng.cont ≠ none then s.env.bkResp.tail else s.env.bkResp }

/-- R341: the values at reset and the outputs there. -/
def Obligations.ResetValues : Prop :=
  let s := State.reset
  s.sess.state = .idle ∧ s.sess.lastError = .noError ∧ s.sess.totalBytes = 0 ∧ s.sess.receivedBytes = 0 ∧
  s.sess.firmwareCRC32 = 0 ∧ s.sess.expectedSequence = 0 ∧ s.sess.imageHeaderChecked = false ∧
  s.sess.handleOpen = false ∧ s.sess.imageCRC32 = 0xFFFFFFFF#32 ∧ s.sess.progressDecile = 0 ∧ s.fbuf = [] ∧
  s.eng.phase = .scan ∧ s.eng.txq = [] ∧ s.eng.halt = .noHalt ∧
  s.rxReady = true ∧ s.txValid = false ∧ s.bkReq = none ∧ s.restartReq = false ∧ s.rollbackReq = false

/-! ### The commands (spec/43_commands.md) -/

/-- R192, R193: START's refusals, in the order of its checks. Nothing but `S.lastError` and the NACK. -/
def Obligations.StartRefusals : Prop :=
  ∀ (s : State) (seq : U16) (off : U32) (p : List Byte),
    (s.sess.state ≠ .idle → s.sess.state ≠ .error →
      exec (.start seq off p) s = .next (s.nacked seq .invalidState 3#8)) ∧
    (s.sess.state = .idle ∨ s.sess.state = .error → p.length < 76 →
      exec (.start seq off p) s = .next (s.nacked seq .frameInvalid 1#8)) ∧
    (s.sess.state = .idle ∨ s.sess.state = .error → 76 ≤ p.length →
      (∀ cap, s.env.updCapacity = some cap → cap < le32 p 0) →
        exec (.start seq off p) s = .next (s.nacked seq .partition 6#8))

/-- R192, R195: START in IDLE or ERROR with an image that fits issues `BEGIN`; answered `OK(h)`, the session is cleared and
opened and READY is queued, all else as it was. (The image record lists nothing then: the model's choice, log entry
11.) -/
def Obligations.StartCompletes : Prop :=
  ∀ (s : State) (seq : U16) (off : U32) (p : List Byte) (cap : U32) (h : Handle) (answers : List BkResp),
    s.Undisturbed → s.sess.state = .idle ∨ s.sess.state = .error → 76 ≤ p.length →
    s.env.updCapacity = some cap → le32 p 0 ≤ cap → s.env.bkResp = .okHandle h :: answers →
      let w := s.waiting (.beginUpdate (le32 p 0)) (.startBegin seq (le32 p 0) (le32 p 4))
      exec (.start seq off p) s = .next w ∧
      step w = .next
        { w with
          sess := ⟨.receiving, .noError, le32 p 0, 0, le32 p 4, 0, false, true, h, 0xFFFFFFFF#32, 0⟩
          image := []
          eng := { s.eng with phase := .tx, cont := none, txq := s.eng.txq ++ encodeFrame 0x83#8 seq 0 [] }
          env := { s.env with bkResp := answers } }

/-- R194, R195: an answer to `BEGIN`, whenever it comes and whatever the ports' other levels. (The image record: log entry
11.) -/
def Obligations.BeginAnswered : Prop :=
  ∀ (w : State) (q : BkReq) (seq : U16) (size fcrc : U32) (a : BkResp) (answers : List BkResp),
    w.env.rst = false → w.eng.phase = .exec → w.eng.cont = some ⟨q, .startBegin seq size fcrc⟩ →
    w.env.bkResp = a :: answers →
      let v : State := { w with env := { w.env with bkResp := answers } }
      (∀ h, a = .okHandle h →
        step w = .next (State.advance (State.replied
          { v with
            sess := ⟨.receiving, .noError, size, 0, fcrc, 0, false, true, h, 0xFFFFFFFF#32, 0⟩
            image := [] } 0x83#8 seq []))) ∧
      (a = .err → step w = .next (v.nacked seq .noMemory 7#8).advance)

/-- R236: DATA and END when the session is not receiving: one NACK, and the state ERROR from IDLE or ERROR. -/
def Obligations.DataAndEndOutsideReceiving : Prop :=
  ∀ (s : State) (seq : U16) (off : U32) (p : List Byte), s.sess.state ≠ .receiving →
    let t := State.nacked
      { s with sess := { s.sess with
        state := if s.sess.state = .idle ∨ s.sess.state = .error then .error else s.sess.state } }
      seq .invalidState 3#8
    exec (.data seq off p) s = .next t ∧ exec (.endTransfer seq off p) s = .next t

/-- R201: DATA's order checks, the sequence first. -/
def Obligations.DataOrderChecks : Prop :=
  ∀ (s : State) (seq : U16) (off : U32) (p : List Byte), s.sess.state = .receiving →
    (seq ≠ s.sess.expectedSequence → exec (.data seq off p) s = .next (s.nacked seq .seq 4#8)) ∧
    (seq = s.sess.expectedSequence → off ≠ s.sess.receivedBytes →
      exec (.data seq off p) s = .next (s.nacked seq .offset 5#8))

/-- R202: the image-header check and `cstr`. -/
def Obligations.HeaderCheckRule : Prop :=
  (∀ (pr : Params) (last : Option Version) (p : List Byte),
    imageHeaderOK pr last p = true ↔
      pr.imgHdrMin ≤ p.length ∧
        ∀ v, last = some v → cstr (slice p pr.imgVerOff (pr.imgVerOff + 32)) ≠ cstr v.toList) ∧
  (∀ x : List Byte, ∃ k, k ≤ x.length ∧ cstr x = x.take k ∧ (∀ j < k, byteAt x j ≠ 0#8) ∧
    (k < x.length → byteAt x k = 0#8))

/-- R202, R240: a first DATA frame whose image header is refused: NACK with the counters of the frame, then the handle's
abort is requested. (The image record: log entry 30.) -/
def Obligations.HeaderRejectionAborts : Prop :=
  ∀ (s : State) (seq : U16) (off : U32) (p : List Byte), s.sess.state = .receiving → s.sess.handleOpen = true →
    seq = s.sess.expectedSequence → off = s.sess.receivedBytes → s.sess.imageHeaderChecked = false →
    imageHeaderOK s.params s.env.lastInvalidVer p = false →
      exec (.data seq off p) s =
        .next ((s.nacked seq .imageInvalid 10#8).waiting (.abortUpdate s.sess.handle) (.abortDone .finished))

/-- R200, R203: an accepted DATA frame. It issues its write at the running offset; answered `OK`, the payload stands at the
image offsets from there on, the counters advance, ACK carries the new ones, PROGRESS follows when a new tenth is reached;
all else as it was. -/
def Obligations.DataCompletes : Prop :=
  ∀ (s : State) (seq : U16) (off : U32) (p : List Byte) (answers : List BkResp),
    s.Undisturbed → s.sess.state = .receiving → seq = s.sess.expectedSequence → off = s.sess.receivedBytes →
    s.sess.imageHeaderChecked = true ∨ imageHeaderOK s.params s.env.lastInvalidVer p = true →
    s.env.bkResp = .ok :: answers →
      let w := State.waiting { s with sess := { s.sess with imageHeaderChecked := true } }
        (.write s.sess.handle off p) (.dataWrite seq p)
      let n := off + BitVec.ofNat 32 p.length
      let pct := percent n s.sess.totalBytes
      let due := decide ((s.sess.progressDecile : Nat) < pct / 10)
      exec (.data seq off p) s = .next w ∧
      step w = .next
        { w with
          image := s.image.writePayload off p
          sess := { s.sess with
            imageHeaderChecked := true
            imageCRC32 := crc32Update s.sess.imageCRC32 p
            receivedBytes := n
            expectedSequence := seq + 1
            progressDecile := if due then decileOf pct else s.sess.progressDecile }
          eng := { s.eng with
            phase := .tx
            cont := none
            txq := s.eng.txq ++ encodeFrame 0x81#8 seq n ([0#8] ++ bytes16 (seq + 1) ++ bytes32 n) ++
              if due then encodeFrame 0x84#8 seq n (bytes32 n ++ bytes32 s.sess.totalBytes ++ [BitVec.ofNat 8 pct])
              else [] }
          env := { s.env with bkResp := answers } }

/-- R61: byte `i` of an accepted payload is at image offset `off + i`, every other offset as before. (The wrap modulo 2^32
is read from R11 by inference: log entry 12.) -/
def Obligations.PayloadReachesTheImage : Prop :=
  ∀ (w t : State) (h : Handle) (off : U32) (seq : U16) (p : List Byte) (answers : List BkResp),
    w.Inv → w.env.rst = false → w.eng.phase = .exec → w.eng.cont = some ⟨.write h off p, .dataWrite seq p⟩ →
    w.env.bkResp = .ok :: answers → step w = .next t →
      (∀ i (hi : i < p.length), t.image.read ((off.toNat + i) % 2 ^ 32) = some p[i]) ∧
      (∀ a, (∀ i < p.length, a ≠ (off.toNat + i) % 2 ^ 32) → t.image.read a = w.image.read a)

/-- R203, R240: a refused write, whenever the answer comes: NACK with the unadvanced counters, then the handle's abort.
(The image record: log entry 30.) -/
def Obligations.WriteRefused : Prop :=
  ∀ (w : State) (q : BkReq) (seq : U16) (p : List Byte) (answers : List BkResp),
    w.env.rst = false → w.eng.phase = .exec → w.eng.cont = some ⟨q, .dataWrite seq p⟩ → w.sess.handleOpen = true →
    w.env.bkResp = .err :: answers →
      let v : State := { w with env := { w.env with bkResp := answers } }
      step w = .next (State.advance
        ((v.nacked seq .flashWrite 8#8).waiting (.abortUpdate w.sess.handle) (.abortDone .finished)))

/-- R353: a DATA frame that has been accepted is refused with SEQ when it is sent again: no frame is written twice. -/
def Obligations.RetransmissionIsRefused : Prop :=
  ∀ (w t u : State) (q : BkReq) (seq : U16) (off : U32) (p p' : List Byte) (answers : List BkResp),
    w.Inv → w.env.rst = false → w.eng.phase = .exec → w.eng.cont = some ⟨q, .dataWrite seq p⟩ →
    w.sess.expectedSequence = seq → w.env.bkResp = .ok :: answers → step w = .next t → u.sess = t.sess →
      exec (.data seq off p') u = .next (u.nacked seq .seq 4#8) ∧ t.sess.expectedSequence = seq + 1

/-- R211: END's own checks: a size mismatch, then (with VERIFY_CRC32) a CRC-32 mismatch: NACK, then the handle's abort.
(The image record: log entry 30.) -/
def Obligations.EndChecks : Prop :=
  ∀ (s : State) (seq : U16) (off : U32) (p : List Byte), s.sess.state = .receiving → s.sess.handleOpen = true →
    (s.sess.receivedBytes ≠ s.sess.totalBytes →
      exec (.endTransfer seq off p) s =
        .next ((s.nacked seq .offset 5#8).waiting (.abortUpdate s.sess.handle) (.abortDone .finished))) ∧
    (s.sess.receivedBytes = s.sess.totalBytes → s.params.verifyCrc32 = true →
      s.sess.imageCRC32 ^^^ 0xFFFFFFFF#32 ≠ s.sess.firmwareCRC32 →
        exec (.endTransfer seq off p) s =
          .next ((s.nacked seq .imageInvalid 10#8).waiting (.abortUpdate s.sess.handle) (.abortDone .finished)))

/-- R210, R212 to R214: END with every byte received, the backend answering `OK` and `OK`: `END`, `SET_BOOT`, COMPLETE, the
restart requested once the reply is sent; all else as it was. (That the image record is kept is the
model's choice, log entry 30.) -/
def Obligations.EndCompletes : Prop :=
  ∀ (s : State) (seq : U16) (off : U32) (p : List Byte) (answers : List BkResp),
    s.Undisturbed → s.sess.state = .receiving → s.sess.receivedBytes = s.sess.totalBytes →
    s.params.verifyCrc32 = false ∨ s.sess.imageCRC32 ^^^ 0xFFFFFFFF#32 = s.sess.firmwareCRC32 →
    s.env.bkResp = .ok :: .ok :: answers →
      let v : State := { s with sess := { s.sess with state := .verifying, handleOpen := false } }
      let w := v.waiting (.endUpdate s.sess.handle) (.endEnd seq)
      let x := State.waiting { w with env := { s.env with bkResp := .ok :: answers } }
        (.setBoot s.sess.handle) (.endSetBoot seq)
      exec (.endTransfer seq off p) s = .next w ∧ step w = .next x ∧
      step x = .next
        { x with
          sess := { s.sess with state := .completed, handleOpen := false }
          eng := { s.eng with
            phase := .tx
            cont := none
            halt := .restart
            txq := s.eng.txq ++ encodeFrame 0x85#8 seq s.sess.receivedBytes [] }
          env := { s.env with bkResp := answers } }

/-- R212, R213: the backend's refusals of `END` and `SET_BOOT`, whenever they come: one NACK, the state stays.
(The image record: log entry 30.) -/
def Obligations.EndRefusedByTheBackend : Prop :=
  ∀ (w : State) (q : BkReq) (seq : U16) (answers : List BkResp),
    w.env.rst = false → w.eng.phase = .exec → w.env.bkResp = .err :: answers →
      let v : State := { w with env := { w.env with bkResp := answers } }
      (w.eng.cont = some ⟨q, .endEnd seq⟩ → step w = .next (v.nacked seq .imageInvalid 10#8).advance) ∧
      (w.eng.cont = some ⟨q, .endSetBoot seq⟩ → step w = .next (v.nacked seq .partition 6#8).advance)

/-- R220, R221, R240: ABORT. With an open handle one `ABORT` request and, answered, the cleared session and the ACK; with
none open, the same at once and no request. `S.lastError` is kept. (The image record: log entries 11 and 30.) -/
def Obligations.AbortCompletes : Prop :=
  ∀ (s : State) (seq : U16) (off : U32) (p : List Byte),
    let cleared (t : State) : State :=
      { t with
        sess := s.sess.aborted
        image := []
        eng := { s.eng with
          phase := .tx
          cont := none
          txq := s.eng.txq ++ encodeFrame 0x81#8 seq 0 [0#8, 0#8, 0#8, 0#8, 0#8, 0#8, 0#8] } }
    (s.sess.handleOpen = false → exec (.abort seq off p) s = .next (cleared s)) ∧
    (s.sess.handleOpen = true →
      let w := s.waiting (.abortUpdate s.sess.handle) (.abortDone (.ack seq))
      exec (.abort seq off p) s = .next w ∧
      ∀ answers, s.Undisturbed → s.env.bkResp = .done :: answers →
        step w = .next { cleared w with env := { s.env with bkResp := answers } })

/-- R240, R241: the answer to the `ABORT` request of a failed command, whenever it comes: the session cleared, IDLE, the
NACK already queued is what is sent. (The image record: log entry 11.) -/
def Obligations.FailureAbortEnds : Prop :=
  ∀ (w : State) (q : BkReq) (answers : List BkResp), w.env.rst = false → w.eng.phase = .exec →
    w.eng.cont = some ⟨q, .abortDone .finished⟩ → w.env.bkResp = .done :: answers →
      step w = .next (State.advance
        { w with
          sess := w.sess.aborted
          image := []
          eng := { w.eng with phase := .tx, cont := none }
          env := { w.env with bkResp := answers } })

/-- R225, R270: QUERY_STATUS queues one STATUS_RESP and changes nothing else; its first byte is the state's code of R100, its
second the error's of R103. -/
def Obligations.QueryStatusCompletes : Prop :=
  (∀ (s : State) (seq : U16) (off : U32) (p : List Byte),
    exec (.queryStatus seq off p) s = .next (s.replied 0x87#8 seq
      ([stateCode s.sess.state, errorByte s.sess.lastError] ++ bytes32 s.sess.receivedBytes ++
        bytes32 s.sess.totalBytes ++ s.env.runningVer.toList))) ∧
  (stateCode .idle = 0#8 ∧ stateCode .waitingStart = 1#8 ∧ stateCode .receiving = 2#8 ∧ stateCode .verifying = 3#8 ∧
    stateCode .applying = 4#8 ∧ stateCode .completed = 5#8 ∧ stateCode .error = 6#8 ∧ stateCode .rollback = 7#8) ∧
  (errorByte .noError = 0#8 ∧ errorByte .frameInvalid = 1#8 ∧ errorByte .crc = 2#8 ∧ errorByte .invalidState = 3#8 ∧
    errorByte .seq = 4#8 ∧ errorByte .offset = 5#8 ∧ errorByte .partition = 6#8 ∧ errorByte .noMemory = 7#8 ∧
    errorByte .flashWrite = 8#8 ∧ errorByte .flashErase = 9#8 ∧ errorByte .imageInvalid = 10#8 ∧
    errorByte .version = 11#8 ∧ errorByte .timeout = 12#8 ∧ errorByte .busy = 13#8 ∧
    errorByte .rollbackFailed = 14#8 ∧ errorByte .unknown = 15#8)

/-- R230 to R232: ROLLBACK_REQ, accepted and refused. (That an accepted one keeps the image record is the model's choice, log
entry 30; I10 leaves the partition's contents after a rollback at any value.) -/
def Obligations.RollbackReqCompletes : Prop :=
  ∀ (s : State) (seq : U16) (off : U32) (p : List Byte),
    (s.env.runningPart ≠ s.env.bootPart →
      exec (.rollbackReq seq off p) s =
        .next (State.replied
          { s with
            sess := { s.sess with state := .rollback }
            eng := { s.eng with halt := .rollback } }
          0x81#8 seq ([0#8] ++ bytes16 s.sess.expectedSequence ++ bytes32 s.sess.receivedBytes))) ∧
    (s.env.runningPart = s.env.bootPart →
      exec (.rollbackReq seq off p) s = .next (s.nacked seq .rollbackFailed 14#8))

/-- R235: the seven device-to-host codes, received: `NACK(UNKNOWN)`, nothing else. -/
def Obligations.DeviceToHostCodesAreUnknown : Prop :=
  ∀ (s : State) (seq : U16) (off : U32) (p : List Byte),
    let t := s.nacked seq .unknown 15#8
    exec (.ack seq off p) s = .next t ∧ exec (.nack seq off p) s = .next t ∧ exec (.ready seq off p) s = .next t ∧
    exec (.progress seq off p) s = .next t ∧ exec (.complete seq off p) s = .next t ∧
    exec (.error seq off p) s = .next t ∧ exec (.statusResp seq off p) s = .next t

/-- R87, R97, R195, R196: what a command ignores of its frame. START reads only the first eight payload bytes and whether
there are 76; END, ABORT, QUERY_STATUS and ROLLBACK_REQ read neither offset nor payload. -/
def Obligations.IgnoredOperands : Prop :=
  ∀ (s : State) (seq : U16) (off off' : U32) (p p' : List Byte),
    ((76 ≤ p.length ↔ 76 ≤ p'.length) → p.take 8 = p'.take 8 →
      exec (.start seq off p) s = exec (.start seq off' p') s) ∧
    exec (.endTransfer seq off p) s = exec (.endTransfer seq off' p') s ∧
    exec (.abort seq off p) s = exec (.abort seq off' p') s ∧
    exec (.queryStatus seq off p) s = exec (.queryStatus seq off' p') s ∧
    exec (.rollbackReq seq off p) s = exec (.rollbackReq seq off' p') s

/-- R262, R263: the percentage and its tenth. -/
def Obligations.PercentageRule : Prop :=
  ∀ received total : U32,
    percent received total ≤ 100 ∧
    (percent received total = 100 ↔ total.toNat ≤ received.toNat) ∧
    (received.toNat < total.toNat →
      percent received total * total.toNat ≤ received.toNat * 100 ∧
        received.toNat * 100 < (percent received total + 1) * total.toNat) ∧
    (decileOf (percent received total) : Nat) = percent received total / 10

/-- R289: a QUERY_STATUS frame offered to an engine at rest is answered by the 58 bytes of its STATUS_RESP: the frame's
bytes in as many steps, one step to run it, 58 to send the reply, and the engine is at rest again. The state's code is that of
R100; the error's, of R103, is fixed by QueryStatusCompletes. -/
def Obligations.QueryStatusTransaction : Prop :=
  ∀ (s : State) (seq : U16) (off : U32) (p rest : List Byte), p.length ≤ 1024 → s.Undisturbed → s.Inv →
    s.eng.phase = .scan → s.fbuf = [] → s.env.txReady = true →
    s.env.rx = encode (.queryStatus seq off p) ++ rest →
      let st : Byte := match s.sess.state with
        | .idle => 0#8
        | .waitingStart => 1#8
        | .receiving => 2#8
        | .verifying => 3#8
        | .applying => 4#8
        | .completed => 5#8
        | .error => 6#8
        | .rollback => 7#8
      let reply := encodeFrame 0x87#8 seq s.sess.receivedBytes
        ([st, errorByte s.sess.lastError] ++ bytes32 s.sess.receivedBytes ++
          bytes32 s.sess.totalBytes ++ s.env.runningVer.toList)
      run (16 + p.length + 1 + 58) s = .next
        { s with
          eng := { s.eng with cur := encode (.queryStatus seq off p) }
          env := { s.env with rx := rest }
          out := { s.out with tx := s.out.tx ++ reply } }

/-! ### The whole machine -/

/-- The invariant of Safety.lean is kept by every step (R34, R37, R166, R286). -/
def Obligations.EveryStepKeepsTheInvariant : Prop :=
  ∀ s t : State, s.Inv → step s = .next t → t.Inv

/-- The invariant holds at reset. -/
def Obligations.ResetHasTheInvariant : Prop := State.reset.Inv

/-- R306, R41: a step always has a next state, when the backend answers as it may. -/
def Obligations.NoStepFaults : Prop :=
  ∀ s : State, s.Inv → s.AnswerFits → ∃ t, step s = .next t

/-- R243: the moves of `S.state`; R236: ERROR is entered from IDLE only, by DATA or END. -/
def Obligations.SessionStateMoves : Prop :=
  ∀ s t : State, s.Inv → s.env.rst = false → step s = .next t →
    let a := s.sess.state
    let b := t.sess.state
    b = a ∨
      (a = .idle ∧ b = .error ∧ ∃ i, decode s.eng.cur = .instr i ∧ (i.opcode = .data ∨ i.opcode = .endTransfer)) ∨
      ((a = .idle ∨ a = .error) ∧ b = .receiving) ∨
      ((a = .receiving ∨ a = .verifying ∨ a = .error) ∧ b = .idle) ∨ (a = .receiving ∧ b = .verifying) ∨
      (a = .verifying ∧ b = .completed) ∨
      ((a = .idle ∨ a = .receiving ∨ a = .verifying ∨ a = .error) ∧ b = .rollback)

/-- R24: `S.lastError` changes only with a NACK queued, which carries it and the counters before the step, and with a
successful START. -/
def Obligations.LastErrorChanges : Prop :=
  ∀ s t : State, s.env.rst = false → step s = .next t → t.sess.lastError ≠ s.sess.lastError →
    (∃ seq, t.eng.txq = s.eng.txq ++ encodeFrame 0x82#8 seq s.sess.receivedBytes
      ([errorByte t.sess.lastError] ++ bytes16 s.sess.expectedSequence ++ bytes32 s.sess.receivedBytes)) ∨
    (t.sess.lastError = .noError ∧ t.sess.state = .receiving ∧
      ∃ q seq size fcrc h, s.eng.cont = some ⟨q, .startBegin seq size fcrc⟩ ∧ s.env.bkResp.head? = some (.okHandle h))

/-- R273, R267: what a step may queue: one reply frame of a code the engine emits (never ERROR), or ACK and then PROGRESS;
otherwise the queue stays or loses its first byte. -/
def Obligations.RepliesQueued : Prop :=
  ∀ s t : State, s.env.rst = false → step s = .next t →
    t.eng.txq = s.eng.txq ∨ (∃ b, s.eng.txq = b :: t.eng.txq) ∨
    (∃ code ∈ [0x81#8, 0x82#8, 0x83#8, 0x85#8, 0x87#8], ∃ seq off p,
      t.eng.txq = s.eng.txq ++ encodeFrame code seq off p) ∨
    (∃ seq off p p', t.eng.txq = s.eng.txq ++ encodeFrame 0x81#8 seq off p ++ encodeFrame 0x84#8 seq off p')

/-- R38, R40: the levels of the output ports. R280, R282, R284: a received byte is taken only in SCAN, an answer only with a
request outstanding, a reply byte sent only in TX, and each only at the head; the other inputs are never changed, and the
parameters (R344) neither. -/
def Obligations.PortsMoveOnlyInTheirPhases : Prop :=
  (∀ s : State,
    (s.rxReady = true ↔ s.eng.phase = .scan) ∧ (s.txValid = true ↔ s.eng.phase = .tx) ∧
    (∀ b rest, s.eng.txq = b :: rest → s.txData = some b) ∧
    (∀ q, s.bkReq = some q ↔ s.eng.phase = .exec ∧ ∃ k, s.eng.cont = some ⟨q, k⟩) ∧
    (s.restartReq = true ↔ s.eng.phase = .halt ∧ s.eng.halt = .restart) ∧
    (s.rollbackReq = true ↔ s.eng.phase = .halt ∧ s.eng.halt = .rollback)) ∧
  ∀ s u : State, s.env.rst = false → s.transition = .next u →
    (u.env.rx = s.env.rx ∨ (s.eng.phase = .scan ∧ ∃ b, s.env.rx = b :: u.env.rx)) ∧
    (u.env.bkResp = s.env.bkResp ∨ (s.bkReq ≠ none ∧ ∃ a, s.env.bkResp = a :: u.env.bkResp)) ∧
    (u.out.tx = s.out.tx ∨
      (s.eng.phase = .tx ∧ s.env.txReady = true ∧ ∃ b, s.eng.txq = b :: u.eng.txq ∧ u.out.tx = s.out.tx ++ [b])) ∧
    u.env = { s.env with rx := u.env.rx, bkResp := u.env.bkResp } ∧ u.later = s.later ∧ u.params = s.params

/-- R286, R66: a step issues at most one request; it is then the outstanding one, and none was, or its answer was there. -/
def Obligations.OneRequestAtATime : Prop :=
  ∀ s t : State, s.env.rst = false → step s = .next t →
    t.out.reqs = s.out.reqs ∨
    ∃ q, t.out.reqs = s.out.reqs ++ [q] ∧ t.bkReq = some q ∧ (s.bkReq = none ∨ s.env.bkResp ≠ [])

/-- R26, R203: `S.receivedBytes` changes only by the data length of a write answered `OK`, or to 0; and every write goes to
the running offset, by the open handle, in RECEIVING. -/
def Obligations.WritesFollowTheCount : Prop :=
  ∀ s t : State, s.Inv → s.env.rst = false → step s = .next t →
    (∀ h off d, t.out.reqs = s.out.reqs ++ [.write h off d] →
      off = t.sess.receivedBytes ∧ h = t.sess.handle ∧ t.sess.state = .receiving ∧ t.sess.handleOpen = true ∧
        d.length ≤ 1024) ∧
    (t.sess.receivedBytes = s.sess.receivedBytes ∨ t.sess.receivedBytes = 0 ∨
      ∃ h d, s.bkReq = some (.write h s.sess.receivedBytes d) ∧ s.env.bkResp.head? = some .ok ∧
        t.sess.receivedBytes = s.sess.receivedBytes + BitVec.ofNat 32 d.length)

/-- R70: over any run in which no transfer is begun, the writes issued continue one another from `S.receivedBytes` on:
contiguous, in order, none twice. -/
def Obligations.WritesAreContiguous : Prop :=
  ∀ (n : Nat) (s t : State), s.Inv → s.NeverReset → s.bkReq = none → run n s = .next t →
    (∀ size, .beginUpdate size ∉ t.out.reqs.drop s.out.reqs.length) →
      WritesContinue s.sess.receivedBytes (t.out.reqs.drop s.out.reqs.length)

end
end

