-- ==== Sys2Proof/Laws/Codec.lean ====
section
/-! SUPPORT. Positions in byte strings, little-endian fields (spec/00_scope.md R12), the shape of an encoded frame
(30_encoding.md R80), and the operands of an instruction built from its command. -/

namespace Sys2Proof

/-! ### Positions -/

theorem byteAt_append_left (a b : List Byte) (i : Nat) (h : i < a.length) : byteAt (a ++ b) i = byteAt a i := by
  simp [byteAt, List.getElem?_append_left h]

theorem byteAt_append_right (a b : List Byte) (i : Nat) (h : a.length ≤ i) :
    byteAt (a ++ b) i = byteAt b (i - a.length) := by
  simp [byteAt, List.getElem?_append_right h]

theorem byteAt_of_getElem? (b : List Byte) (i : Nat) (v : Byte) (h : b[i]? = some v) : byteAt b i = v := by
  simp [byteAt, h]

theorem byteAt_set (f : List Byte) (k i : Nat) (v : Byte) (hk : k < f.length) :
    byteAt (f.set k v) i = if i = k then v else byteAt f i := by
  by_cases h : i = k
  · subst h; simp [byteAt, hk]
  · simp [byteAt, List.getElem?_set_ne (Ne.symm h), h]

theorem slice_length (b : List Byte) (lo hi : Nat) : (slice b lo hi).length = min (hi - lo) (b.length - lo) := by
  simp [slice]

/-! ### Little-endian fields -/

@[simp] theorem bytes16_length (v : U16) : (bytes16 v).length = 2 := rfl
@[simp] theorem bytes32_length (v : U32) : (bytes32 v).length = 4 := rfl

theorem le16_append_left (a b : List Byte) (i : Nat) (h : i + 1 < a.length) : le16 (a ++ b) i = le16 a i := by
  simp [le16, byteAt_append_left a b i (by omega), byteAt_append_left a b (i + 1) h]

/-- A 16-bit field is the value whose two bytes stand at its positions. -/
theorem le16_of_bytes (v : U16) (b : List Byte) (i : Nat) (h0 : byteAt b i = v.extractLsb' 0 8)
    (h1 : byteAt b (i + 1) = v.extractLsb' 8 8) : le16 b i = v := by
  unfold le16
  rw [h0, h1]
  ext j hj
  rcases Nat.lt_or_ge j 8 with h | h
  · simp [h, BitVec.getLsbD_eq_getElem hj]
  · simp [h, Nat.not_lt.2 h, show j - 8 < 8 by omega, show 8 + (j - 8) = j by omega, BitVec.getLsbD_eq_getElem hj]

/-- A 32-bit field is the value whose four bytes stand at its positions. -/
theorem le32_of_bytes (v : U32) (b : List Byte) (i : Nat) (h0 : byteAt b i = v.extractLsb' 0 8)
    (h1 : byteAt b (i + 1) = v.extractLsb' 8 8) (h2 : byteAt b (i + 2) = v.extractLsb' 16 8)
    (h3 : byteAt b (i + 3) = v.extractLsb' 24 8) : le32 b i = v := by
  unfold le32
  have e1 : le16 b i = v.extractLsb' 0 16 := by
    apply le16_of_bytes
    · rw [h0]; ext j hj; simp; try omega
    · rw [h1]; ext j hj; simp; try omega
  have e2 : le16 b (i + 2) = v.extractLsb' 16 16 := by
    apply le16_of_bytes
    · rw [h2]; ext j hj; simp [show j < 16 by omega]
    · rw [h3]; ext j hj; simp [show 8 + j < 16 by omega, show 16 + (8 + j) = 24 + j by omega]
  rw [e1, e2]
  ext j hj
  rcases Nat.lt_or_ge j 16 with h | h
  · simp [h, BitVec.getLsbD_eq_getElem hj]
  · simp [h, Nat.not_lt.2 h, show j - 16 < 16 by omega, show 16 + (j - 16) = j by omega,
      BitVec.getLsbD_eq_getElem hj]

/-- Writing a 16-bit field that was read gives its two bytes back. -/
theorem bytes16_le16 (b : List Byte) (i : Nat) : bytes16 (le16 b i) = [byteAt b i, byteAt b (i + 1)] := by
  simp only [bytes16, le16, List.cons.injEq, and_true]
  constructor
  · ext j hj; simp [hj]; omega
  · ext j hj; simp [show 8 + j < 16 by omega, BitVec.getLsbD_eq_getElem hj]

/-- Writing a 32-bit field that was read gives its four bytes back. -/
theorem bytes32_le32 (b : List Byte) (i : Nat) :
    bytes32 (le32 b i) = [byteAt b i, byteAt b (i + 1), byteAt b (i + 2), byteAt b (i + 3)] := by
  simp only [bytes32, le32, le16, List.cons.injEq, and_true]
  refine ⟨?_, ?_, ?_, ?_⟩
  · ext j hj; simp [hj, show j < 16 by omega, show j < 32 by omega]
  · ext j hj
    simp [hj, show 8 + j < 16 by omega, show 8 + j < 32 by omega]
  · ext j hj
    have : (byteAt b i).getLsbD (16 + j) = false := BitVec.getLsbD_of_ge _ _ (by omega)
    simp [hj, show 16 + j < 32 by omega, show j < 16 by omega, this]
  · ext j hj
    have e1 : (byteAt b i).getLsbD (24 + j) = false := BitVec.getLsbD_of_ge _ _ (by omega)
    simp [hj, show 24 + j < 32 by omega, show 24 + j - 16 = 8 + j by omega, show 8 + j < 16 by omega,
      show ¬(24 + j < 16) by omega, e1]

/-! ### The shape of a frame -/

/-- The header of a frame, byte by byte, then the payload. -/
theorem frameBody_eq (ver cmd : Byte) (q : U16) (o : U32) (p : List Byte) :
    frameBody ver cmd q o p =
      0xAA#8 :: 0x55#8 :: ver :: cmd :: q.extractLsb' 0 8 :: q.extractLsb' 8 8 ::
        o.extractLsb' 0 8 :: o.extractLsb' 8 8 :: o.extractLsb' 16 8 :: o.extractLsb' 24 8 ::
        (BitVec.ofNat 16 p.length).extractLsb' 0 8 :: (BitVec.ofNat 16 p.length).extractLsb' 8 8 :: p := rfl

@[simp] theorem frameBody_length (ver cmd : Byte) (q : U16) (o : U32) (p : List Byte) :
    (frameBody ver cmd q o p).length = 12 + p.length := by
  simp [frameBody_eq]; omega

@[simp] theorem frameTrailer_length (b : List Byte) : (frameTrailer b).length = 4 := rfl

@[simp] theorem encodeFrame_length (cmd : Byte) (q : U16) (o : U32) (p : List Byte) :
    (encodeFrame cmd q o p).length = 16 + p.length := by
  simp [encodeFrame]; omega

@[simp] theorem encodeFrame_ne_nil (cmd : Byte) (q : U16) (o : U32) (p : List Byte) : encodeFrame cmd q o p ≠ [] := by
  simp [encodeFrame, frameBody_eq]

/-! ### Instructions and their commands -/

@[simp] theorem Opcode.instr_opcode (c : Opcode) (q : U16) (o : U32) (p : List Byte) : (c.instr q o p).opcode = c := by
  cases c <;> rfl
@[simp] theorem Opcode.instr_seq (c : Opcode) (q : U16) (o : U32) (p : List Byte) : (c.instr q o p).seq = q := by
  cases c <;> rfl
@[simp] theorem Opcode.instr_off (c : Opcode) (q : U16) (o : U32) (p : List Byte) : (c.instr q o p).off = o := by
  cases c <;> rfl
@[simp] theorem Opcode.instr_payload (c : Opcode) (q : U16) (o : U32) (p : List Byte) : (c.instr q o p).payload = p := by
  cases c <;> rfl

/-- An instruction is its command with its operands. -/
theorem Instr.eq_instr (i : Instr) : i.opcode.instr i.seq i.off i.payload = i := by cases i <;> rfl

end Sys2Proof
end

