-- ==== Sys2Proof/Laws/Framer.lean ====
section
/-! SUPPORT. What the framer's operations can do (spec/42_framer.md): where a marker found lies, what a marker-less buffer
keeps (R163), and all that a receive step does (R160). -/

namespace Sys2Proof.Machine

/-- A marker found lies inside the buffer, both its bytes. -/
theorem findMarker_lt : ∀ (b : List Byte) (p : Nat), findMarker b = some p → p + 2 ≤ b.length
  | [], p, h => by simp [findMarker] at h
  | [a], p, h => by simp [findMarker] at h
  | a :: c :: r, p, h => by
    unfold findMarker at h
    split_ifs at h with hc
    · cases h; simp
    · simp at h
      obtain ⟨q, hq, rfl⟩ := h
      have := findMarker_lt (c :: r) q hq
      simp at *; omega

/-- A marker-less buffer keeps nothing, or one AA (R163). -/
theorem keepHalfMarker_cases (b : List Byte) : keepHalfMarker b = [] ∨ keepHalfMarker b = [0xAA#8] := by
  unfold keepHalfMarker; split_ifs <;> simp

/-- All that a receive step does (R160): the scan of the lengthened buffer; with a frame, EXEC starts on it. -/
theorem State.rxStep_cases (s : State) (b : Byte) :
    ((scan (s.fbuf ++ [b])).frame = none ∧
      s.rxStep b =
        { s with
          fbuf := (scan (s.fbuf ++ [b])).buf
          out := { s.out with drops := s.out.drops ++ (scan (s.fbuf ++ [b])).drops } }) ∨
    (∃ f, (scan (s.fbuf ++ [b])).frame = some f ∧
      s.rxStep b =
        { s with
          fbuf := (scan (s.fbuf ++ [b])).buf
          out := { s.out with drops := s.out.drops ++ (scan (s.fbuf ++ [b])).drops }
          eng := { s.eng with phase := .exec, cur := f, cont := none } }) := by
  unfold State.rxStep
  cases h : (scan (s.fbuf ++ [b])).frame with
  | none => exact .inl ⟨rfl, by simp only [h]⟩
  | some f => exact .inr ⟨f, rfl, by simp only [h]⟩

end Sys2Proof.Machine
end

