-- ==== Sys2Proof/Laws/Memory.lean ====
section
/-! SUPPORT. The image offset space (spec/20_memory.md R60, R61): what a read gives after each memory operation, and that
every memory operation keeps the canonical form. -/

namespace Sys2Proof.Machine

@[simp] theorem Memory.read_nil (a : Nat) : Memory.read [] a = none := rfl

/-- Read after one byte written: the byte at its offset, the old value everywhere else. -/
theorem Memory.read_put : ∀ (m : Memory) (a : Nat) (v : Byte) (x : Nat),
    (m.put a v).read x = if a = x then some v else m.read x
  | [], a, v, x => rfl
  | (k, w) :: r, a, v, x => by
    have ih := Memory.read_put r a v x
    unfold Memory.put
    split_ifs with h1 h2 <;> simp only [Memory.read] <;> split_ifs <;> first | rfl | omega | simp_all

/-- Every entry of a written memory is the new one or an old one. -/
theorem Memory.mem_put : ∀ (m : Memory) (a : Nat) (v : Byte) (c : Host.Cell), c ∈ m.put a v → c = (a, v) ∨ c ∈ m
  | [], a, v, c, h => by simpa [Memory.put] using h
  | (k, w) :: r, a, v, c, h => by
    unfold Memory.put at h
    split_ifs at h with h1 h2
    · simpa using h
    · rcases List.mem_cons.1 h with h | h
      · exact .inl h
      · exact .inr (List.mem_cons_of_mem _ h)
    · rcases List.mem_cons.1 h with h | h
      · exact .inr (h ▸ List.mem_cons_self ..)
      · rcases Memory.mem_put r a v c h with h | h
        · exact .inl h
        · exact .inr (List.mem_cons_of_mem _ h)

/-- One byte written keeps the canonical form. -/
theorem Memory.wf_put : ∀ (m : Memory) (a : Nat) (v : Byte), m.wf → a < imageSize → (m.put a v).wf
  | [], a, v, _, ha => ⟨by simp [Memory.put], by intro c hc; simp [Memory.put] at hc; subst hc; exact ha⟩
  | (k, w) :: r, a, v, ⟨hp, hb⟩, ha => by
    have hp' := List.pairwise_cons.1 hp
    have hr : Memory.wf r := ⟨hp'.2, fun c hc => hb c (List.mem_cons_of_mem _ hc)⟩
    refine ⟨?_, fun c hc => ?_⟩
    · unfold Memory.put
      split_ifs with h1 h2
      · refine List.pairwise_cons.2 ⟨fun c hc => ?_, hp⟩
        rcases List.mem_cons.1 hc with h | h
        · rw [h]; exact h1
        · exact lt_trans h1 (hp'.1 c h)
      · subst h2; exact List.pairwise_cons.2 ⟨hp'.1, hp'.2⟩
      · refine List.pairwise_cons.2 ⟨fun c hc => ?_, (Memory.wf_put r a v hr ha).1⟩
        rcases Memory.mem_put r a v c hc with h | h
        · rw [h]; show k < a; omega
        · exact hp'.1 c h
    · rcases Memory.mem_put _ a v c hc with h | h
      · rw [h]; exact ha
      · exact hb c h

/-- A run of bytes written keeps the canonical form. -/
theorem Memory.wf_putAll : ∀ (p : List Byte) (m : Memory) (a : Nat), m.wf → (m.putAll a p).wf
  | [], _, _, h => h
  | b :: r, m, a, h =>
    Memory.wf_putAll r _ _ (Memory.wf_put m _ b h (Nat.mod_lt _ (by simp [imageSize])))

/-- An accepted payload keeps the canonical form. -/
theorem Memory.wf_writePayload (m : Memory) (off : U32) (p : List Byte) (h : m.wf) : (m.writePayload off p).wf :=
  Memory.wf_putAll p m off.toNat h

/-- The empty memory has the canonical form; it is the reset memory. -/
theorem Memory.wf_nil : Memory.wf [] := ⟨List.Pairwise.nil, fun _ h => by cases h⟩

theorem reset_image_wf : State.reset.image.wf := Memory.wf_nil

end Sys2Proof.Machine
end

