-- ==== Sys2Proof/Laws/State.lean ====
section
/-! SUPPORT. One lemma per field for every update of the state that the rules share, each true by `rfl`, so that no later
proof unfolds a record update. The operations with a choice in them (`progress`, `wrongState`, `acceptData`, `endAbort`,
`abortInternal`, `advance`) have their lemmas in Laws/Ops.lean and Laws/Step.lean. -/

namespace Sys2Proof.Machine

variable (s : State)

/-! ### `setLastError` -/

@[simp] theorem State.setLastError_sess (code : ErrorCode) : (s.setLastError code).sess = { s.sess with lastError := code } := rfl
@[simp] theorem State.setLastError_fbuf (code : ErrorCode) : (s.setLastError code).fbuf = s.fbuf := rfl
@[simp] theorem State.setLastError_image (code : ErrorCode) : (s.setLastError code).image = s.image := rfl
@[simp] theorem State.setLastError_params (code : ErrorCode) : (s.setLastError code).params = s.params := rfl
@[simp] theorem State.setLastError_env (code : ErrorCode) : (s.setLastError code).env = s.env := rfl
@[simp] theorem State.setLastError_later (code : ErrorCode) : (s.setLastError code).later = s.later := rfl
@[simp] theorem State.setLastError_out (code : ErrorCode) : (s.setLastError code).out = s.out := rfl
@[simp] theorem State.setLastError_phase (code : ErrorCode) : (s.setLastError code).eng.phase = s.eng.phase := rfl
@[simp] theorem State.setLastError_txq (code : ErrorCode) : (s.setLastError code).eng.txq = s.eng.txq := rfl
@[simp] theorem State.setLastError_halt (code : ErrorCode) : (s.setLastError code).eng.halt = s.eng.halt := rfl
@[simp] theorem State.setLastError_cur (code : ErrorCode) : (s.setLastError code).eng.cur = s.eng.cur := rfl
@[simp] theorem State.setLastError_cont (code : ErrorCode) : (s.setLastError code).eng.cont = s.eng.cont := rfl

/-! ### `emit` -/

@[simp] theorem State.emit_sess (cmd : Opcode) (seq : U16) (off : U32) (p : List Byte) : (s.emit cmd seq off p).sess = s.sess := rfl
@[simp] theorem State.emit_fbuf (cmd : Opcode) (seq : U16) (off : U32) (p : List Byte) : (s.emit cmd seq off p).fbuf = s.fbuf := rfl
@[simp] theorem State.emit_image (cmd : Opcode) (seq : U16) (off : U32) (p : List Byte) :
    (s.emit cmd seq off p).image = s.image := rfl
@[simp] theorem State.emit_params (cmd : Opcode) (seq : U16) (off : U32) (p : List Byte) :
    (s.emit cmd seq off p).params = s.params := rfl
@[simp] theorem State.emit_env (cmd : Opcode) (seq : U16) (off : U32) (p : List Byte) : (s.emit cmd seq off p).env = s.env := rfl
@[simp] theorem State.emit_later (cmd : Opcode) (seq : U16) (off : U32) (p : List Byte) :
    (s.emit cmd seq off p).later = s.later := rfl
@[simp] theorem State.emit_out (cmd : Opcode) (seq : U16) (off : U32) (p : List Byte) : (s.emit cmd seq off p).out = s.out := rfl
@[simp] theorem State.emit_phase (cmd : Opcode) (seq : U16) (off : U32) (p : List Byte) :
    (s.emit cmd seq off p).eng.phase = s.eng.phase := rfl
@[simp] theorem State.emit_txq (cmd : Opcode) (seq : U16) (off : U32) (p : List Byte) :
    (s.emit cmd seq off p).eng.txq = s.eng.txq ++ encodeFrame cmd.code seq off p := rfl
@[simp] theorem State.emit_halt (cmd : Opcode) (seq : U16) (off : U32) (p : List Byte) :
    (s.emit cmd seq off p).eng.halt = s.eng.halt := rfl
@[simp] theorem State.emit_cur (cmd : Opcode) (seq : U16) (off : U32) (p : List Byte) :
    (s.emit cmd seq off p).eng.cur = s.eng.cur := rfl
@[simp] theorem State.emit_cont (cmd : Opcode) (seq : U16) (off : U32) (p : List Byte) :
    (s.emit cmd seq off p).eng.cont = s.eng.cont := rfl

/-! ### `ack` -/

@[simp] theorem State.ack_sess (seq : U16) : (s.ack seq).sess = s.sess := rfl
@[simp] theorem State.ack_fbuf (seq : U16) : (s.ack seq).fbuf = s.fbuf := rfl
@[simp] theorem State.ack_image (seq : U16) : (s.ack seq).image = s.image := rfl
@[simp] theorem State.ack_params (seq : U16) : (s.ack seq).params = s.params := rfl
@[simp] theorem State.ack_env (seq : U16) : (s.ack seq).env = s.env := rfl
@[simp] theorem State.ack_later (seq : U16) : (s.ack seq).later = s.later := rfl
@[simp] theorem State.ack_out (seq : U16) : (s.ack seq).out = s.out := rfl
@[simp] theorem State.ack_phase (seq : U16) : (s.ack seq).eng.phase = s.eng.phase := rfl
@[simp] theorem State.ack_txq (seq : U16) :
    (s.ack seq).eng.txq = s.eng.txq ++
      encodeFrame 0x81#8 seq s.sess.receivedBytes (ackPayload .noError s.sess.expectedSequence s.sess.receivedBytes) := rfl
@[simp] theorem State.ack_halt (seq : U16) : (s.ack seq).eng.halt = s.eng.halt := rfl
@[simp] theorem State.ack_cur (seq : U16) : (s.ack seq).eng.cur = s.eng.cur := rfl
@[simp] theorem State.ack_cont (seq : U16) : (s.ack seq).eng.cont = s.eng.cont := rfl

/-! ### `nack` -/

@[simp] theorem State.nack_sess (seq : U16) (code : ErrorCode) :
    (s.nack seq code).sess = { s.sess with lastError := code } := rfl
@[simp] theorem State.nack_fbuf (seq : U16) (code : ErrorCode) : (s.nack seq code).fbuf = s.fbuf := rfl
@[simp] theorem State.nack_image (seq : U16) (code : ErrorCode) : (s.nack seq code).image = s.image := rfl
@[simp] theorem State.nack_params (seq : U16) (code : ErrorCode) : (s.nack seq code).params = s.params := rfl
@[simp] theorem State.nack_env (seq : U16) (code : ErrorCode) : (s.nack seq code).env = s.env := rfl
@[simp] theorem State.nack_later (seq : U16) (code : ErrorCode) : (s.nack seq code).later = s.later := rfl
@[simp] theorem State.nack_out (seq : U16) (code : ErrorCode) : (s.nack seq code).out = s.out := rfl
@[simp] theorem State.nack_phase (seq : U16) (code : ErrorCode) : (s.nack seq code).eng.phase = s.eng.phase := rfl
@[simp] theorem State.nack_txq (seq : U16) (code : ErrorCode) :
    (s.nack seq code).eng.txq = s.eng.txq ++
      encodeFrame 0x82#8 seq s.sess.receivedBytes (ackPayload code s.sess.expectedSequence s.sess.receivedBytes) := rfl
@[simp] theorem State.nack_halt (seq : U16) (code : ErrorCode) : (s.nack seq code).eng.halt = s.eng.halt := rfl
@[simp] theorem State.nack_cur (seq : U16) (code : ErrorCode) : (s.nack seq code).eng.cur = s.eng.cur := rfl
@[simp] theorem State.nack_cont (seq : U16) (code : ErrorCode) : (s.nack seq code).eng.cont = s.eng.cont := rfl

/-! ### `nackReturn` -/

@[simp] theorem State.nackReturn_sess (seq : U16) (code : ErrorCode) :
    (s.nackReturn seq code).sess = { s.sess with lastError := code } := rfl
@[simp] theorem State.nackReturn_fbuf (seq : U16) (code : ErrorCode) : (s.nackReturn seq code).fbuf = s.fbuf := rfl
@[simp] theorem State.nackReturn_image (seq : U16) (code : ErrorCode) : (s.nackReturn seq code).image = s.image := rfl
@[simp] theorem State.nackReturn_params (seq : U16) (code : ErrorCode) : (s.nackReturn seq code).params = s.params := rfl
@[simp] theorem State.nackReturn_env (seq : U16) (code : ErrorCode) : (s.nackReturn seq code).env = s.env := rfl
@[simp] theorem State.nackReturn_later (seq : U16) (code : ErrorCode) : (s.nackReturn seq code).later = s.later := rfl
@[simp] theorem State.nackReturn_out (seq : U16) (code : ErrorCode) : (s.nackReturn seq code).out = s.out := rfl
@[simp] theorem State.nackReturn_phase (seq : U16) (code : ErrorCode) : (s.nackReturn seq code).eng.phase = .tx := rfl
@[simp] theorem State.nackReturn_txq (seq : U16) (code : ErrorCode) :
    (s.nackReturn seq code).eng.txq = s.eng.txq ++
      encodeFrame 0x82#8 seq s.sess.receivedBytes (ackPayload code s.sess.expectedSequence s.sess.receivedBytes) := rfl
@[simp] theorem State.nackReturn_halt (seq : U16) (code : ErrorCode) : (s.nackReturn seq code).eng.halt = s.eng.halt := rfl
@[simp] theorem State.nackReturn_cur (seq : U16) (code : ErrorCode) : (s.nackReturn seq code).eng.cur = s.eng.cur := rfl
@[simp] theorem State.nackReturn_cont (seq : U16) (code : ErrorCode) : (s.nackReturn seq code).eng.cont = none := rfl

/-! ### `unknownCommand` -/

@[simp] theorem State.unknownCommand_sess (seq : U16) : (s.unknownCommand seq).sess = { s.sess with lastError := .unknown } := rfl
@[simp] theorem State.unknownCommand_fbuf (seq : U16) : (s.unknownCommand seq).fbuf = s.fbuf := rfl
@[simp] theorem State.unknownCommand_image (seq : U16) : (s.unknownCommand seq).image = s.image := rfl
@[simp] theorem State.unknownCommand_params (seq : U16) : (s.unknownCommand seq).params = s.params := rfl
@[simp] theorem State.unknownCommand_env (seq : U16) : (s.unknownCommand seq).env = s.env := rfl
@[simp] theorem State.unknownCommand_later (seq : U16) : (s.unknownCommand seq).later = s.later := rfl
@[simp] theorem State.unknownCommand_out (seq : U16) : (s.unknownCommand seq).out = s.out := rfl
@[simp] theorem State.unknownCommand_phase (seq : U16) : (s.unknownCommand seq).eng.phase = .tx := rfl
@[simp] theorem State.unknownCommand_txq (seq : U16) :
    (s.unknownCommand seq).eng.txq = s.eng.txq ++
      encodeFrame 0x82#8 seq s.sess.receivedBytes (ackPayload .unknown s.sess.expectedSequence s.sess.receivedBytes) := rfl
@[simp] theorem State.unknownCommand_halt (seq : U16) : (s.unknownCommand seq).eng.halt = s.eng.halt := rfl
@[simp] theorem State.unknownCommand_cur (seq : U16) : (s.unknownCommand seq).eng.cur = s.eng.cur := rfl
@[simp] theorem State.unknownCommand_cont (seq : U16) : (s.unknownCommand seq).eng.cont = none := rfl

/-! ### `request` -/

@[simp] theorem State.request_sess (r : BkReq) (k : Cont) : (s.request r k).sess = s.sess := rfl
@[simp] theorem State.request_fbuf (r : BkReq) (k : Cont) : (s.request r k).fbuf = s.fbuf := rfl
@[simp] theorem State.request_image (r : BkReq) (k : Cont) : (s.request r k).image = s.image := rfl
@[simp] theorem State.request_params (r : BkReq) (k : Cont) : (s.request r k).params = s.params := rfl
@[simp] theorem State.request_env (r : BkReq) (k : Cont) : (s.request r k).env = s.env := rfl
@[simp] theorem State.request_later (r : BkReq) (k : Cont) : (s.request r k).later = s.later := rfl
@[simp] theorem State.request_out (r : BkReq) (k : Cont) :
    (s.request r k).out = { s.out with reqs := s.out.reqs ++ [r] } := rfl
@[simp] theorem State.request_phase (r : BkReq) (k : Cont) : (s.request r k).eng.phase = .exec := rfl
@[simp] theorem State.request_txq (r : BkReq) (k : Cont) : (s.request r k).eng.txq = s.eng.txq := rfl
@[simp] theorem State.request_halt (r : BkReq) (k : Cont) : (s.request r k).eng.halt = s.eng.halt := rfl
@[simp] theorem State.request_cur (r : BkReq) (k : Cont) : (s.request r k).eng.cur = s.eng.cur := rfl
@[simp] theorem State.request_cont (r : BkReq) (k : Cont) : (s.request r k).eng.cont = some ⟨r, k⟩ := rfl

/-! ### `issueWrite` -/

@[simp] theorem State.issueWrite_sess (seq : U16) (p : List Byte) : (s.issueWrite seq p).sess = s.sess := rfl
@[simp] theorem State.issueWrite_fbuf (seq : U16) (p : List Byte) : (s.issueWrite seq p).fbuf = s.fbuf := rfl
@[simp] theorem State.issueWrite_image (seq : U16) (p : List Byte) : (s.issueWrite seq p).image = s.image := rfl
@[simp] theorem State.issueWrite_params (seq : U16) (p : List Byte) : (s.issueWrite seq p).params = s.params := rfl
@[simp] theorem State.issueWrite_env (seq : U16) (p : List Byte) : (s.issueWrite seq p).env = s.env := rfl
@[simp] theorem State.issueWrite_later (seq : U16) (p : List Byte) : (s.issueWrite seq p).later = s.later := rfl
@[simp] theorem State.issueWrite_out (seq : U16) (p : List Byte) :
    (s.issueWrite seq p).out = { s.out with reqs := s.out.reqs ++ [.write s.sess.handle s.sess.receivedBytes p] } := rfl
@[simp] theorem State.issueWrite_phase (seq : U16) (p : List Byte) : (s.issueWrite seq p).eng.phase = .exec := rfl
@[simp] theorem State.issueWrite_txq (seq : U16) (p : List Byte) : (s.issueWrite seq p).eng.txq = s.eng.txq := rfl
@[simp] theorem State.issueWrite_halt (seq : U16) (p : List Byte) : (s.issueWrite seq p).eng.halt = s.eng.halt := rfl
@[simp] theorem State.issueWrite_cur (seq : U16) (p : List Byte) : (s.issueWrite seq p).eng.cur = s.eng.cur := rfl
@[simp] theorem State.issueWrite_cont (seq : U16) (p : List Byte) :
    (s.issueWrite seq p).eng.cont = some ⟨.write s.sess.handle s.sess.receivedBytes p, .dataWrite seq p⟩ := rfl

/-! ### `finish` -/

@[simp] theorem State.finish_sess : (s.finish).sess = s.sess := rfl
@[simp] theorem State.finish_fbuf : (s.finish).fbuf = s.fbuf := rfl
@[simp] theorem State.finish_image : (s.finish).image = s.image := rfl
@[simp] theorem State.finish_params : (s.finish).params = s.params := rfl
@[simp] theorem State.finish_env : (s.finish).env = s.env := rfl
@[simp] theorem State.finish_later : (s.finish).later = s.later := rfl
@[simp] theorem State.finish_out : (s.finish).out = s.out := rfl
@[simp] theorem State.finish_phase : (s.finish).eng.phase = .tx := rfl
@[simp] theorem State.finish_txq : (s.finish).eng.txq = s.eng.txq := rfl
@[simp] theorem State.finish_halt : (s.finish).eng.halt = s.eng.halt := rfl
@[simp] theorem State.finish_cur : (s.finish).eng.cur = s.eng.cur := rfl
@[simp] theorem State.finish_cont : (s.finish).eng.cont = none := rfl

/-! ### `drop` -/

@[simp] theorem State.drop_sess (reason : ErrorCode) : (s.drop reason).sess = s.sess := rfl
@[simp] theorem State.drop_fbuf (reason : ErrorCode) : (s.drop reason).fbuf = s.fbuf := rfl
@[simp] theorem State.drop_image (reason : ErrorCode) : (s.drop reason).image = s.image := rfl
@[simp] theorem State.drop_params (reason : ErrorCode) : (s.drop reason).params = s.params := rfl
@[simp] theorem State.drop_env (reason : ErrorCode) : (s.drop reason).env = s.env := rfl
@[simp] theorem State.drop_later (reason : ErrorCode) : (s.drop reason).later = s.later := rfl
@[simp] theorem State.drop_out (reason : ErrorCode) :
    (s.drop reason).out = { s.out with drops := s.out.drops ++ [reason] } := rfl
@[simp] theorem State.drop_phase (reason : ErrorCode) : (s.drop reason).eng.phase = .scan := rfl
@[simp] theorem State.drop_txq (reason : ErrorCode) : (s.drop reason).eng.txq = s.eng.txq := rfl
@[simp] theorem State.drop_halt (reason : ErrorCode) : (s.drop reason).eng.halt = s.eng.halt := rfl
@[simp] theorem State.drop_cur (reason : ErrorCode) : (s.drop reason).eng.cur = s.eng.cur := rfl
@[simp] theorem State.drop_cont (reason : ErrorCode) : (s.drop reason).eng.cont = s.eng.cont := rfl

/-! ### `clearSession` -/

@[simp] theorem State.clearSession_sess : (s.clearSession).sess = s.sess.clear := rfl
@[simp] theorem State.clearSession_fbuf : (s.clearSession).fbuf = s.fbuf := rfl
@[simp] theorem State.clearSession_image : (s.clearSession).image = [] := rfl
@[simp] theorem State.clearSession_params : (s.clearSession).params = s.params := rfl
@[simp] theorem State.clearSession_env : (s.clearSession).env = s.env := rfl
@[simp] theorem State.clearSession_later : (s.clearSession).later = s.later := rfl
@[simp] theorem State.clearSession_out : (s.clearSession).out = s.out := rfl
@[simp] theorem State.clearSession_phase : (s.clearSession).eng.phase = s.eng.phase := rfl
@[simp] theorem State.clearSession_txq : (s.clearSession).eng.txq = s.eng.txq := rfl
@[simp] theorem State.clearSession_halt : (s.clearSession).eng.halt = s.eng.halt := rfl
@[simp] theorem State.clearSession_cur : (s.clearSession).eng.cur = s.eng.cur := rfl
@[simp] theorem State.clearSession_cont : (s.clearSession).eng.cont = s.eng.cont := rfl

/-! ### `takeAnswer` -/

@[simp] theorem State.takeAnswer_sess : (s.takeAnswer).sess = s.sess := rfl
@[simp] theorem State.takeAnswer_fbuf : (s.takeAnswer).fbuf = s.fbuf := rfl
@[simp] theorem State.takeAnswer_image : (s.takeAnswer).image = s.image := rfl
@[simp] theorem State.takeAnswer_params : (s.takeAnswer).params = s.params := rfl
@[simp] theorem State.takeAnswer_env : (s.takeAnswer).env = { s.env with bkResp := s.env.bkResp.tail } := rfl
@[simp] theorem State.takeAnswer_later : (s.takeAnswer).later = s.later := rfl
@[simp] theorem State.takeAnswer_out : (s.takeAnswer).out = s.out := rfl
@[simp] theorem State.takeAnswer_phase : (s.takeAnswer).eng.phase = s.eng.phase := rfl
@[simp] theorem State.takeAnswer_txq : (s.takeAnswer).eng.txq = s.eng.txq := rfl
@[simp] theorem State.takeAnswer_halt : (s.takeAnswer).eng.halt = s.eng.halt := rfl
@[simp] theorem State.takeAnswer_cur : (s.takeAnswer).eng.cur = s.eng.cur := rfl
@[simp] theorem State.takeAnswer_cont : (s.takeAnswer).eng.cont = none := rfl

/-! ### `placeFrame` -/

@[simp] theorem State.placeFrame_sess (f : List Byte) : (s.placeFrame f).sess = s.sess := rfl
@[simp] theorem State.placeFrame_fbuf (f : List Byte) : (s.placeFrame f).fbuf = s.fbuf := rfl
@[simp] theorem State.placeFrame_image (f : List Byte) : (s.placeFrame f).image = s.image := rfl
@[simp] theorem State.placeFrame_params (f : List Byte) : (s.placeFrame f).params = s.params := rfl
@[simp] theorem State.placeFrame_env (f : List Byte) : (s.placeFrame f).env = { s.env with rst := false } := rfl
@[simp] theorem State.placeFrame_later (f : List Byte) : (s.placeFrame f).later = s.later := rfl
@[simp] theorem State.placeFrame_out (f : List Byte) : (s.placeFrame f).out = s.out := rfl
@[simp] theorem State.placeFrame_phase (f : List Byte) : (s.placeFrame f).eng.phase = .exec := rfl
@[simp] theorem State.placeFrame_txq (f : List Byte) : (s.placeFrame f).eng.txq = s.eng.txq := rfl
@[simp] theorem State.placeFrame_halt (f : List Byte) : (s.placeFrame f).eng.halt = s.eng.halt := rfl
@[simp] theorem State.placeFrame_cur (f : List Byte) : (s.placeFrame f).eng.cur = f := rfl
@[simp] theorem State.placeFrame_cont (f : List Byte) : (s.placeFrame f).eng.cont = none := rfl

/-! ### `startOk` -/

@[simp] theorem State.startOk_sess (seq : U16) (size fcrc : U32) (h : Handle) :
    (s.startOk seq size fcrc h).sess = 
      { s.sess.clear with
        handle := h, handleOpen := true, totalBytes := size, firmwareCRC32 := fcrc, lastError := .noError,
        state := .receiving } := rfl
@[simp] theorem State.startOk_fbuf (seq : U16) (size fcrc : U32) (h : Handle) : (s.startOk seq size fcrc h).fbuf = s.fbuf := rfl
@[simp] theorem State.startOk_image (seq : U16) (size fcrc : U32) (h : Handle) : (s.startOk seq size fcrc h).image = [] := rfl
@[simp] theorem State.startOk_params (seq : U16) (size fcrc : U32) (h : Handle) : (s.startOk seq size fcrc h).params = s.params := rfl
@[simp] theorem State.startOk_env (seq : U16) (size fcrc : U32) (h : Handle) : (s.startOk seq size fcrc h).env = s.env := rfl
@[simp] theorem State.startOk_later (seq : U16) (size fcrc : U32) (h : Handle) : (s.startOk seq size fcrc h).later = s.later := rfl
@[simp] theorem State.startOk_out (seq : U16) (size fcrc : U32) (h : Handle) : (s.startOk seq size fcrc h).out = s.out := rfl
@[simp] theorem State.startOk_phase (seq : U16) (size fcrc : U32) (h : Handle) : (s.startOk seq size fcrc h).eng.phase = .tx := rfl
@[simp] theorem State.startOk_txq (seq : U16) (size fcrc : U32) (h : Handle) :
    (s.startOk seq size fcrc h).eng.txq = s.eng.txq ++ encodeFrame 0x83#8 seq 0 [] := rfl
@[simp] theorem State.startOk_halt (seq : U16) (size fcrc : U32) (h : Handle) : (s.startOk seq size fcrc h).eng.halt = s.eng.halt := rfl
@[simp] theorem State.startOk_cur (seq : U16) (size fcrc : U32) (h : Handle) : (s.startOk seq size fcrc h).eng.cur = s.eng.cur := rfl
@[simp] theorem State.startOk_cont (seq : U16) (size fcrc : U32) (h : Handle) : (s.startOk seq size fcrc h).eng.cont = none := rfl

/-! ### `completeTransfer` -/

@[simp] theorem State.completeTransfer_sess (seq : U16) : (s.completeTransfer seq).sess = { s.sess with state := .completed } := rfl
@[simp] theorem State.completeTransfer_fbuf (seq : U16) : (s.completeTransfer seq).fbuf = s.fbuf := rfl
@[simp] theorem State.completeTransfer_image (seq : U16) : (s.completeTransfer seq).image = s.image := rfl
@[simp] theorem State.completeTransfer_params (seq : U16) : (s.completeTransfer seq).params = s.params := rfl
@[simp] theorem State.completeTransfer_env (seq : U16) : (s.completeTransfer seq).env = s.env := rfl
@[simp] theorem State.completeTransfer_later (seq : U16) : (s.completeTransfer seq).later = s.later := rfl
@[simp] theorem State.completeTransfer_out (seq : U16) : (s.completeTransfer seq).out = s.out := rfl
@[simp] theorem State.completeTransfer_phase (seq : U16) : (s.completeTransfer seq).eng.phase = .tx := rfl
@[simp] theorem State.completeTransfer_txq (seq : U16) :
    (s.completeTransfer seq).eng.txq = s.eng.txq ++ encodeFrame 0x85#8 seq s.sess.receivedBytes [] := rfl
@[simp] theorem State.completeTransfer_halt (seq : U16) : (s.completeTransfer seq).eng.halt = .restart := rfl
@[simp] theorem State.completeTransfer_cur (seq : U16) : (s.completeTransfer seq).eng.cur = s.eng.cur := rfl
@[simp] theorem State.completeTransfer_cont (seq : U16) : (s.completeTransfer seq).eng.cont = none := rfl

/-! ### `acceptRollback` -/

@[simp] theorem State.acceptRollback_sess (seq : U16) : (s.acceptRollback seq).sess = { s.sess with state := .rollback } := rfl
@[simp] theorem State.acceptRollback_fbuf (seq : U16) : (s.acceptRollback seq).fbuf = s.fbuf := rfl
@[simp] theorem State.acceptRollback_image (seq : U16) : (s.acceptRollback seq).image = s.image := rfl
@[simp] theorem State.acceptRollback_params (seq : U16) : (s.acceptRollback seq).params = s.params := rfl
@[simp] theorem State.acceptRollback_env (seq : U16) : (s.acceptRollback seq).env = s.env := rfl
@[simp] theorem State.acceptRollback_later (seq : U16) : (s.acceptRollback seq).later = s.later := rfl
@[simp] theorem State.acceptRollback_out (seq : U16) : (s.acceptRollback seq).out = s.out := rfl
@[simp] theorem State.acceptRollback_phase (seq : U16) : (s.acceptRollback seq).eng.phase = .tx := rfl
@[simp] theorem State.acceptRollback_txq (seq : U16) :
    (s.acceptRollback seq).eng.txq = s.eng.txq ++
      encodeFrame 0x81#8 seq s.sess.receivedBytes (ackPayload .noError s.sess.expectedSequence s.sess.receivedBytes) := rfl
@[simp] theorem State.acceptRollback_halt (seq : U16) : (s.acceptRollback seq).eng.halt = .rollback := rfl
@[simp] theorem State.acceptRollback_cur (seq : U16) : (s.acceptRollback seq).eng.cur = s.eng.cur := rfl
@[simp] theorem State.acceptRollback_cont (seq : U16) : (s.acceptRollback seq).eng.cont = none := rfl

/-! ### `Session.clear` -/

@[simp] theorem Session.clear_state (r : Session) : r.clear.state = r.state := rfl
@[simp] theorem Session.clear_lastError (r : Session) : r.clear.lastError = r.lastError := rfl
@[simp] theorem Session.clear_totalBytes (r : Session) : r.clear.totalBytes = 0 := rfl
@[simp] theorem Session.clear_receivedBytes (r : Session) : r.clear.receivedBytes = 0 := rfl
@[simp] theorem Session.clear_firmwareCRC32 (r : Session) : r.clear.firmwareCRC32 = 0 := rfl
@[simp] theorem Session.clear_expectedSequence (r : Session) : r.clear.expectedSequence = 0 := rfl
@[simp] theorem Session.clear_imageHeaderChecked (r : Session) : r.clear.imageHeaderChecked = false := rfl
@[simp] theorem Session.clear_handleOpen (r : Session) : r.clear.handleOpen = r.handleOpen := rfl
@[simp] theorem Session.clear_handle (r : Session) : r.clear.handle = r.handle := rfl
@[simp] theorem Session.clear_imageCRC32 (r : Session) : r.clear.imageCRC32 = 0xFFFFFFFF#32 := rfl
@[simp] theorem Session.clear_progressDecile (r : Session) : r.clear.progressDecile = 0 := rfl

end Sys2Proof.Machine
end

