-- ==== Sys2Proof/Laws/Ops.lean ====
section
/-! SUPPORT. What each shared operation with a choice in it can do, said once: PROGRESS (spec/44_replies.md R262), wrongState
(43_commands.md R236), the internal abort (R240), the acceptance of a DATA frame (R203); and the operations as the
one-reply and one-request states of Safety.lean. -/

namespace Sys2Proof.Machine

variable (s : State)

/-! ### Replies and requests in the terms of Safety.lean -/

theorem State.nackReturn_eq_nacked (seq : U16) (c : ErrorCode) : s.nackReturn seq c = s.nacked seq c (errorByte c) := rfl

theorem State.unknownCommand_eq_nacked (seq : U16) : s.unknownCommand seq = s.nacked seq .unknown 15#8 := rfl

theorem State.request_eq_waiting (q : BkReq) (k : Cont) : s.request q k = s.waiting q k := rfl

theorem State.emit_finish_eq_replied (c : Opcode) (seq : U16) (p : List Byte) :
    (s.emit c seq s.sess.receivedBytes p).finish = s.replied c.code seq p := rfl

/-! ### `progress` (R262) -/

/-- The PROGRESS frame of R262 when a new tenth is reached, nothing otherwise. -/
def State.progressReply (seq : U16) : List Byte :=
  if s.sess.progressDecile < decileOf (percent s.sess.receivedBytes s.sess.totalBytes) then
    encodeFrame 0x84#8 seq s.sess.receivedBytes
      (progressPayload s.sess.receivedBytes s.sess.totalBytes (percent s.sess.receivedBytes s.sess.totalBytes))
  else []

/-- All that `progress` does: the highest tenth so far is recorded, and the reply queued if it is new. -/
theorem State.progress_eq (seq : U16) :
    s.progress seq =
      { s with
        sess := { s.sess with
          progressDecile := max s.sess.progressDecile (decileOf (percent s.sess.receivedBytes s.sess.totalBytes)) }
        eng := { s.eng with txq := s.eng.txq ++ s.progressReply seq } } := by
  unfold State.progress State.progressReply
  by_cases h : s.sess.progressDecile < decileOf (percent s.sess.receivedBytes s.sess.totalBytes)
  · simp [h, State.emit, max_eq_right h.le, Opcode.code]
  · simp [h, max_eq_left (not_lt.1 h)]

@[simp] theorem State.progress_sess (seq : U16) :
    (s.progress seq).sess =
      { s.sess with
        progressDecile := max s.sess.progressDecile (decileOf (percent s.sess.receivedBytes s.sess.totalBytes)) } := by
  rw [State.progress_eq]
@[simp] theorem State.progress_txq (seq : U16) : (s.progress seq).eng.txq = s.eng.txq ++ s.progressReply seq := by
  rw [State.progress_eq]
@[simp] theorem State.progress_fbuf (seq : U16) : (s.progress seq).fbuf = s.fbuf := by rw [State.progress_eq]
@[simp] theorem State.progress_image (seq : U16) : (s.progress seq).image = s.image := by rw [State.progress_eq]
@[simp] theorem State.progress_params (seq : U16) : (s.progress seq).params = s.params := by rw [State.progress_eq]
@[simp] theorem State.progress_env (seq : U16) : (s.progress seq).env = s.env := by rw [State.progress_eq]
@[simp] theorem State.progress_later (seq : U16) : (s.progress seq).later = s.later := by rw [State.progress_eq]
@[simp] theorem State.progress_out (seq : U16) : (s.progress seq).out = s.out := by rw [State.progress_eq]
@[simp] theorem State.progress_phase (seq : U16) : (s.progress seq).eng.phase = s.eng.phase := by rw [State.progress_eq]
@[simp] theorem State.progress_halt (seq : U16) : (s.progress seq).eng.halt = s.eng.halt := by rw [State.progress_eq]
@[simp] theorem State.progress_cur (seq : U16) : (s.progress seq).eng.cur = s.eng.cur := by rw [State.progress_eq]
@[simp] theorem State.progress_cont (seq : U16) : (s.progress seq).eng.cont = s.eng.cont := by rw [State.progress_eq]

/-! ### `wrongState` (R236) -/

/-- All that `wrongState` does: one NACK, and the state ERROR from IDLE or ERROR. -/
theorem State.wrongState_eq (seq : U16) :
    s.wrongState seq =
      { s.nack seq .invalidState with
        sess := { s.sess with
          lastError := .invalidState
          state := if s.sess.state = .idle ∨ s.sess.state = .error then .error else s.sess.state } } := by
  unfold State.wrongState
  by_cases h : s.sess.state = .idle ∨ s.sess.state = .error
  · rw [if_pos h, if_pos h]; rfl
  · rw [if_neg h, if_neg h]; rfl

/-! ### `acceptData` (R203) -/

/-- All that an accepted DATA frame does: the payload at the running offset, the counters advanced, ACK with the new
counters, PROGRESS if a tenth is reached. -/
theorem State.acceptData_eq (seq : U16) (p : List Byte) :
    s.acceptData seq p =
      { s with
        image := s.image.writePayload s.sess.receivedBytes p
        sess := { s.sess with
          imageCRC32 := crc32Update s.sess.imageCRC32 p
          receivedBytes := s.sess.receivedBytes + BitVec.ofNat 32 p.length
          expectedSequence := s.sess.expectedSequence + 1
          progressDecile := max s.sess.progressDecile
            (decileOf (percent (s.sess.receivedBytes + BitVec.ofNat 32 p.length) s.sess.totalBytes)) }
        eng := { s.eng with
          phase := .tx
          cont := none
          txq := s.eng.txq ++
            (encodeFrame 0x81#8 seq (s.sess.receivedBytes + BitVec.ofNat 32 p.length)
              (ackPayload .noError (s.sess.expectedSequence + 1) (s.sess.receivedBytes + BitVec.ofNat 32 p.length)) ++
            State.progressReply { s with sess := { s.sess with
              receivedBytes := s.sess.receivedBytes + BitVec.ofNat 32 p.length } } seq) } } := by
  simp only [State.acceptData, State.progress_eq, ← List.append_assoc]
  rfl

/-! ### The internal abort (R240) -/

/-- What the internal abort's end queues: ABORT's ACK with the cleared counters, or nothing. -/
def AfterAbort.replies : AfterAbort → List Byte
  | .finished => []
  | .ack seq => encodeFrame 0x81#8 seq 0 (ackPayload .noError 0 0)

/-- All that the internal abort does once the handle is released. -/
theorem State.endAbort_eq (k : AfterAbort) :
    s.endAbort k =
      { s with
        sess := { s.sess.clear with state := .idle }
        image := []
        eng := { s.eng with phase := .tx, cont := none, txq := s.eng.txq ++ k.replies } } := by
  cases k
  · simp [State.endAbort, AfterAbort.replies, State.finish, State.clearSession]
  · rfl

/-- The internal abort of an open handle issues one request and waits. -/
theorem State.abortInternal_of_open (k : AfterAbort) (h : s.sess.handleOpen = true) :
    s.abortInternal k = s.waiting (.abortUpdate s.sess.handle) (.abortDone k) := by
  unfold State.abortInternal; rw [if_pos h]; rfl

/-- With no open handle the internal abort ends at once. -/
theorem State.abortInternal_of_closed (k : AfterAbort) (h : s.sess.handleOpen = false) :
    s.abortInternal k = s.endAbort k := by
  unfold State.abortInternal; rw [if_neg (by simp [h])]

end Sys2Proof.Machine
end

