-- ==== Sys2Proof/Laws/PerInstr.lean ====
section
/-! SUPPORT. The family `FramePrefix` of LAWS.json: an instruction's frame starts with the pattern the opcode table gives its
row (spec/30_encoding.md R104: AA 55 01 and the command's code) and is 16 bytes longer than its payload (R80). -/

namespace Sys2Proof.Laws

/-- The pattern of the instruction's row of the table, and the frame's length. -/
def FramePrefix.Statement (i : Instr) : Prop :=
  (encode i).take 4 = [0xAA#8, 0x55#8, 0x01#8, i.opcode.code] ∧ (encode i).length = 16 + i.payload.length

/-- The frame of any command. -/
theorem FramePrefix.ofCommand (i : Instr) : FramePrefix.Statement i :=
  ⟨by simp [encode, encodeFrame, frameBody_eq], encodeFrame_length ..⟩

theorem FramePrefix.start (seq : U16) (off : U32) (p : List Byte) : FramePrefix.Statement (.start seq off p) :=
  FramePrefix.ofCommand _
theorem FramePrefix.data (seq : U16) (off : U32) (p : List Byte) : FramePrefix.Statement (.data seq off p) :=
  FramePrefix.ofCommand _
theorem FramePrefix.endTransfer (seq : U16) (off : U32) (p : List Byte) : FramePrefix.Statement (.endTransfer seq off p) :=
  FramePrefix.ofCommand _
theorem FramePrefix.abort (seq : U16) (off : U32) (p : List Byte) : FramePrefix.Statement (.abort seq off p) :=
  FramePrefix.ofCommand _
theorem FramePrefix.queryStatus (seq : U16) (off : U32) (p : List Byte) : FramePrefix.Statement (.queryStatus seq off p) :=
  FramePrefix.ofCommand _
theorem FramePrefix.rollbackReq (seq : U16) (off : U32) (p : List Byte) : FramePrefix.Statement (.rollbackReq seq off p) :=
  FramePrefix.ofCommand _
theorem FramePrefix.ack (seq : U16) (off : U32) (p : List Byte) : FramePrefix.Statement (.ack seq off p) :=
  FramePrefix.ofCommand _
theorem FramePrefix.nack (seq : U16) (off : U32) (p : List Byte) : FramePrefix.Statement (.nack seq off p) :=
  FramePrefix.ofCommand _
theorem FramePrefix.ready (seq : U16) (off : U32) (p : List Byte) : FramePrefix.Statement (.ready seq off p) :=
  FramePrefix.ofCommand _
theorem FramePrefix.progress (seq : U16) (off : U32) (p : List Byte) : FramePrefix.Statement (.progress seq off p) :=
  FramePrefix.ofCommand _
theorem FramePrefix.complete (seq : U16) (off : U32) (p : List Byte) : FramePrefix.Statement (.complete seq off p) :=
  FramePrefix.ofCommand _
theorem FramePrefix.error (seq : U16) (off : U32) (p : List Byte) : FramePrefix.Statement (.error seq off p) :=
  FramePrefix.ofCommand _
theorem FramePrefix.statusResp (seq : U16) (off : U32) (p : List Byte) : FramePrefix.Statement (.statusResp seq off p) :=
  FramePrefix.ofCommand _

end Sys2Proof.Laws
end

