-- ==== Sys2Proof/Laws/Step.lean ====
section
/-! SUPPORT. What a step can do, said once: the inversion of `step`, of a transition (spec/45_driver.md R287), of the start of
a frame (R281), of a command up to its first request (43_commands.md), and of its resumption (R282). -/

namespace Sys2Proof.Machine

/-! ### The environment's part -/

@[simp] theorem State.advance_sess (s : State) : s.advance.sess = s.sess := by unfold State.advance; split <;> rfl
@[simp] theorem State.advance_fbuf (s : State) : s.advance.fbuf = s.fbuf := by unfold State.advance; split <;> rfl
@[simp] theorem State.advance_eng (s : State) : s.advance.eng = s.eng := by unfold State.advance; split <;> rfl
@[simp] theorem State.advance_image (s : State) : s.advance.image = s.image := by unfold State.advance; split <;> rfl
@[simp] theorem State.advance_params (s : State) : s.advance.params = s.params := by unfold State.advance; split <;> rfl
@[simp] theorem State.advance_out (s : State) : s.advance.out = s.out := by unfold State.advance; split <;> rfl
@[simp] theorem State.advance_later (s : State) : s.advance.later = s.later.tail := by
  unfold State.advance; split <;> simp_all
theorem State.advance_of_nil (s : State) (h : s.later = []) : s.advance = s := by unfold State.advance; rw [h]

/-! ### The step -/

theorem step_of_transition {s t : State} (h : s.transition = .next t) : step s = .next t.advance := by
  unfold step driverStep; rw [h]

/-- A step that answers a next state is a transition, then the environment's part. -/
theorem step_next {s t : State} (h : step s = .next t) : ∃ u, s.transition = .next u ∧ t = u.advance := by
  unfold step driverStep at h
  split at h
  · rename_i u hu; cases h; exact ⟨u, hu, rfl⟩
  · cases h
  · cases h

/-- One byte sent (R284, R285). -/
def State.sendByte (s : State) (b : Byte) (rest : List Byte) : State :=
  { s with
    eng := { s.eng with txq := rest, phase := if rest = [] then phaseAfterTx s.eng.halt else .tx }
    out := { s.out with tx := s.out.tx ++ [b] } }

/-- All the transitions of R287. -/
theorem transition_next {s u : State} (h : s.transition = .next u) :
    (s.env.rst = true ∧ u = s.resetStep) ∨
    (s.env.rst = false ∧ s.eng.phase = .scan ∧ u = s.scanStep) ∨
    (s.env.rst = false ∧ s.eng.phase = .exec ∧ s.eng.cont = none ∧ s.startFrame = .next u) ∨
    (s.env.rst = false ∧ s.eng.phase = .exec ∧ (∃ pd, s.eng.cont = some pd) ∧ s.env.bkResp = [] ∧ u = s) ∨
    (s.env.rst = false ∧ s.eng.phase = .exec ∧
      ∃ pd r rs, s.eng.cont = some pd ∧ s.env.bkResp = r :: rs ∧ resume pd.cont r s.takeAnswer = .next u) ∨
    (s.env.rst = false ∧ s.eng.phase = .tx ∧ s.env.txReady = false ∧ u = s) ∨
    (s.env.rst = false ∧ s.eng.phase = .tx ∧ s.env.txReady = true ∧
      ∃ b rest, s.eng.txq = b :: rest ∧ u = s.sendByte b rest) ∨
    (s.env.rst = false ∧ s.eng.phase = .halt ∧ u = s) := by
  unfold State.transition at h
  by_cases hr : s.env.rst = true
  · rw [if_pos hr] at h; cases h; exact .inl ⟨hr, rfl⟩
  rw [if_neg hr] at h
  have hr' : s.env.rst = false := by simpa using hr
  right
  cases hp : s.eng.phase <;> rw [hp] at h <;> simp only at h
  · cases h; exact .inl ⟨hr', rfl, rfl⟩
  · cases hc : s.eng.cont with
    | none => rw [hc] at h; exact .inr (.inl ⟨hr', rfl, rfl, h⟩)
    | some pd =>
      rw [hc] at h
      simp only [State.awaitAnswer] at h
      cases hb : s.env.bkResp with
      | nil => rw [hb] at h; cases h; exact .inr (.inr (.inl ⟨hr', rfl, ⟨pd, rfl⟩, rfl, rfl⟩))
      | cons r rs =>
        rw [hb] at h
        exact .inr (.inr (.inr (.inl ⟨hr', rfl, pd, r, rs, rfl, rfl, h⟩)))
  · unfold State.txStep at h
    by_cases ht : s.env.txReady = true
    · rw [if_pos ht] at h
      cases hq : s.eng.txq with
      | nil => rw [hq] at h; cases h
      | cons b rest =>
        rw [hq] at h
        cases h
        exact .inr (.inr (.inr (.inr (.inr (.inl ⟨hr', rfl, ht, b, rest, rfl, rfl⟩)))))
    · rw [if_neg ht] at h; cases h
      exact .inr (.inr (.inr (.inr (.inl ⟨hr', rfl, by simpa using ht, rfl⟩))))
  · cases h; exact .inr (.inr (.inr (.inr (.inr (.inr ⟨hr', rfl, rfl⟩)))))

/-- All that the first step of EXEC can do (R281). -/
theorem startFrame_next {s u : State} (h : s.startFrame = .next u) :
    (∃ e, decode s.eng.cur = .bad e ∧ u = s.drop e.reason) ∨
    (∃ fr, decode s.eng.cur = .reserved fr ∧ u = s.unknownCommand fr.sequence) ∨
    (∃ i, decode s.eng.cur = .instr i ∧ exec i s = .next u) := by
  unfold State.startFrame at h
  split at h
  · rename_i e he; cases h; exact .inl ⟨e, he, rfl⟩
  · rename_i fr he; cases h; exact .inr (.inl ⟨fr, he, rfl⟩)
  · rename_i i he; exact .inr (.inr ⟨i, he, h⟩)

/-! ### The commands -/

/-- START up to its request (R192). -/
theorem execStart_next {q : U16} {o : U32} {p : List Byte} {s u : State} (h : execStart q o p s = .next u) :
    (u = s.nackReturn q .invalidState ∧ s.sess.state ≠ .idle ∧ s.sess.state ≠ .error) ∨
    ((s.sess.state = .idle ∨ s.sess.state = .error) ∧
      (u = s.nackReturn q .frameInvalid ∨ u = s.nackReturn q .partition ∨
        u = s.request (.beginUpdate (le32 p 0)) (.startBegin q (le32 p 0) (le32 p 4)))) := by
  simp only [execStart, Host.Outcome.next.injEq] at h
  split_ifs at h with h1 h2 h3 <;> subst h <;> simp_all [startFirmwareSize, startFirmwareCRC32]

/-- DATA up to its request (R200 to R202). A write is issued with `S.imageHeaderChecked` set. -/
theorem execData_next {q : U16} {o : U32} {p : List Byte} {s u : State} (h : execData q o p s = .next u) :
    (s.sess.state ≠ .receiving ∧ u = (s.wrongState q).finish) ∨
    (s.sess.state = .receiving ∧
      (u = s.nackReturn q .seq ∨ u = s.nackReturn q .offset ∨
        u = (s.nack q .imageInvalid).abortInternal .finished ∨
        (q = s.sess.expectedSequence ∧ o = s.sess.receivedBytes ∧
          u = State.issueWrite { s with sess := { s.sess with imageHeaderChecked := true } } q p))) := by
  simp only [execData, Host.Outcome.next.injEq] at h
  split_ifs at h with h1 h2 h3 h4 h5
  · exact .inl ⟨h1, h.symm⟩
  · exact .inr ⟨not_not.1 h1, .inl h.symm⟩
  · exact .inr ⟨not_not.1 h1, .inr (.inl h.symm)⟩
  · refine .inr ⟨not_not.1 h1, .inr (.inr (.inr ⟨not_not.1 h2, not_not.1 h3, h.symm.trans ?_⟩))⟩
    have : ({ s with sess := { s.sess with imageHeaderChecked := true } } : State) = s := by rw [← h4]
    rw [this]
  · exact .inr ⟨not_not.1 h1, .inr (.inr (.inr ⟨not_not.1 h2, not_not.1 h3, h.symm⟩))⟩
  · exact .inr ⟨not_not.1 h1, .inr (.inr (.inl h.symm))⟩

/-- END up to its request (R210 to R212). -/
theorem execEnd_next {q : U16} {o : U32} {p : List Byte} {s u : State} (h : execEnd q o p s = .next u) :
    (s.sess.state ≠ .receiving ∧ u = (s.wrongState q).finish) ∨
    (s.sess.state = .receiving ∧
      (u = (s.nack q .offset).abortInternal .finished ∨ u = (s.nack q .imageInvalid).abortInternal .finished ∨
        (s.sess.receivedBytes = s.sess.totalBytes ∧
          u = State.request { s with sess := { s.sess with state := .verifying, handleOpen := false } }
            (.endUpdate s.sess.handle) (.endEnd q)))) := by
  simp only [execEnd, Host.Outcome.next.injEq] at h
  split_ifs at h with h1 h2 h3
  · exact .inl ⟨h1, h.symm⟩
  · exact .inr ⟨not_not.1 h1, .inl h.symm⟩
  · exact .inr ⟨not_not.1 h1, .inr (.inl h.symm)⟩
  · exact .inr ⟨not_not.1 h1, .inr (.inr ⟨not_not.1 h2, h.symm⟩)⟩

/-- ROLLBACK_REQ (R230). -/
theorem execRollbackReq_next {q : U16} {o : U32} {p : List Byte} {s u : State} (h : execRollbackReq q o p s = .next u) :
    (s.env.runningPart ≠ s.env.bootPart ∧ u = s.acceptRollback q) ∨
    (s.env.runningPart = s.env.bootPart ∧ u = s.nackReturn q .rollbackFailed) := by
  simp only [execRollbackReq, Host.Outcome.next.injEq] at h
  split_ifs at h with h1
  · exact .inl ⟨h1, h.symm⟩
  · exact .inr ⟨not_not.1 h1, h.symm⟩

/-- The commands that are one reply: a NACK alone, STATUS_RESP, an accepted rollback. -/
def State.statusReply (s : State) (q : U16) : State :=
  s.replied 0x87#8 q
    (statusPayload s.sess.state s.sess.lastError s.sess.receivedBytes s.sess.totalBytes s.env.runningVer)

/-- Everything a command can do up to its first request or its end. -/
theorem exec_next {i : Instr} {s u : State} (h : exec i s = .next u) :
    (∃ c, c ≠ .noError ∧ u = s.nackReturn i.seq c) ∨
    ((i.opcode = .data ∨ i.opcode = .endTransfer) ∧ s.sess.state ≠ .receiving ∧ u = (s.wrongState i.seq).finish) ∨
    (i.opcode = .start ∧ (s.sess.state = .idle ∨ s.sess.state = .error) ∧
      u = s.request (.beginUpdate (le32 i.payload 0)) (.startBegin i.seq (le32 i.payload 0) (le32 i.payload 4))) ∨
    (i.opcode = .data ∧ s.sess.state = .receiving ∧ i.seq = s.sess.expectedSequence ∧ i.off = s.sess.receivedBytes ∧
      u = State.issueWrite { s with sess := { s.sess with imageHeaderChecked := true } } i.seq i.payload) ∨
    ((i.opcode = .data ∨ i.opcode = .endTransfer) ∧ s.sess.state = .receiving ∧
      ∃ c, c ≠ .noError ∧ u = (s.nack i.seq c).abortInternal .finished) ∨
    (i.opcode = .endTransfer ∧ s.sess.state = .receiving ∧ s.sess.receivedBytes = s.sess.totalBytes ∧
      u = State.request { s with sess := { s.sess with state := .verifying, handleOpen := false } }
        (.endUpdate s.sess.handle) (.endEnd i.seq)) ∨
    (i.opcode = .abort ∧ u = s.abortInternal (.ack i.seq)) ∨
    (i.opcode = .queryStatus ∧ u = s.statusReply i.seq) ∨
    (i.opcode = .rollbackReq ∧ s.env.runningPart ≠ s.env.bootPart ∧ u = s.acceptRollback i.seq) := by
  cases i with
  | start q o p =>
    rcases execStart_next (o := o) (p := p) h with ⟨h, -⟩ | ⟨hs, h | h | h⟩
    · exact .inl ⟨_, by decide, h⟩
    · exact .inl ⟨_, by decide, h⟩
    · exact .inl ⟨_, by decide, h⟩
    · exact .inr (.inr (.inl ⟨rfl, hs, h⟩))
  | data q o p =>
    rcases execData_next (o := o) (p := p) h with ⟨hs, h⟩ | ⟨hs, h | h | h | ⟨h1, h2, h⟩⟩
    · exact .inr (.inl ⟨.inl rfl, hs, h⟩)
    · exact .inl ⟨_, by decide, h⟩
    · exact .inl ⟨_, by decide, h⟩
    · exact .inr (.inr (.inr (.inr (.inl ⟨.inl rfl, hs, _, by decide, h⟩))))
    · exact .inr (.inr (.inr (.inl ⟨rfl, hs, h1, h2, h⟩)))
  | endTransfer q o p =>
    rcases execEnd_next (o := o) (p := p) h with ⟨hs, h⟩ | ⟨hs, h | h | ⟨h1, h⟩⟩
    · exact .inr (.inl ⟨.inr rfl, hs, h⟩)
    · exact .inr (.inr (.inr (.inr (.inl ⟨.inr rfl, hs, _, by decide, h⟩))))
    · exact .inr (.inr (.inr (.inr (.inl ⟨.inr rfl, hs, _, by decide, h⟩))))
    · exact .inr (.inr (.inr (.inr (.inr (.inl ⟨rfl, hs, h1, h⟩)))))
  | abort q o p => cases h; exact .inr (.inr (.inr (.inr (.inr (.inr (.inl ⟨rfl, rfl⟩))))))
  | queryStatus q o p => cases h; exact .inr (.inr (.inr (.inr (.inr (.inr (.inr (.inl ⟨rfl, rfl⟩)))))))
  | rollbackReq q o p =>
    rcases execRollbackReq_next (o := o) (p := p) h with ⟨hs, h⟩ | ⟨-, h⟩
    · exact .inr (.inr (.inr (.inr (.inr (.inr (.inr (.inr ⟨rfl, hs, h⟩)))))))
    · exact .inl ⟨_, by decide, h⟩
  | ack q o p => cases h; exact .inl ⟨.unknown, by decide, rfl⟩
  | nack q o p => cases h; exact .inl ⟨.unknown, by decide, rfl⟩
  | ready q o p => cases h; exact .inl ⟨.unknown, by decide, rfl⟩
  | progress q o p => cases h; exact .inl ⟨.unknown, by decide, rfl⟩
  | complete q o p => cases h; exact .inl ⟨.unknown, by decide, rfl⟩
  | error q o p => cases h; exact .inl ⟨.unknown, by decide, rfl⟩
  | statusResp q o p => cases h; exact .inl ⟨.unknown, by decide, rfl⟩

/-- Everything a resumed command can do (R282). -/
theorem resume_next {k : Cont} {r : BkResp} {s u : State} (h : resume k r s = .next u) :
    (∃ q size fcrc hd, k = .startBegin q size fcrc ∧ r = .okHandle hd ∧ u = s.startOk q size fcrc hd) ∨
    (∃ q size fcrc, k = .startBegin q size fcrc ∧ r = .err ∧ u = s.nackReturn q .noMemory) ∨
    (∃ q p, k = .dataWrite q p ∧ r = .ok ∧ u = s.acceptData q p) ∨
    (∃ q p, k = .dataWrite q p ∧ r = .err ∧ u = (s.nack q .flashWrite).abortInternal .finished) ∨
    (∃ q, k = .endEnd q ∧ r = .ok ∧ u = s.request (.setBoot s.sess.handle) (.endSetBoot q)) ∨
    (∃ q, k = .endEnd q ∧ r = .err ∧ u = s.nackReturn q .imageInvalid) ∨
    (∃ q, k = .endSetBoot q ∧ r = .ok ∧ u = s.completeTransfer q) ∨
    (∃ q, k = .endSetBoot q ∧ r = .err ∧ u = s.nackReturn q .partition) ∨
    (∃ a, k = .abortDone a ∧ r = .done ∧
      u = State.endAbort { s with sess := { s.sess with handleOpen := false } } a) := by
  cases k with
  | startBegin q size fcrc =>
    cases r <;> cases h
    · exact .inl ⟨q, size, fcrc, _, rfl, rfl, rfl⟩
    · exact .inr (.inl ⟨q, size, fcrc, rfl, rfl, rfl⟩)
  | dataWrite q p =>
    cases r <;> cases h
    · exact .inr (.inr (.inl ⟨q, p, rfl, rfl, rfl⟩))
    · exact .inr (.inr (.inr (.inl ⟨q, p, rfl, rfl, rfl⟩)))
  | endEnd q =>
    cases r <;> cases h
    · exact .inr (.inr (.inr (.inr (.inl ⟨q, rfl, rfl, rfl⟩))))
    · exact .inr (.inr (.inr (.inr (.inr (.inl ⟨q, rfl, rfl, rfl⟩)))))
  | endSetBoot q =>
    cases r <;> cases h
    · exact .inr (.inr (.inr (.inr (.inr (.inr (.inl ⟨q, rfl, rfl, rfl⟩))))))
    · exact .inr (.inr (.inr (.inr (.inr (.inr (.inr (.inl ⟨q, rfl, rfl, rfl⟩)))))))
  | abortDone a =>
    cases r <;> cases h
    exact .inr (.inr (.inr (.inr (.inr (.inr (.inr (.inr ⟨a, rfl, rfl, rfl⟩)))))))

end Sys2Proof.Machine
end

