-- ==== Sys2Proof/Tests/Slice0.lean ====
section
/-! SUPPORT. The model's own tests. Expected words and replies are the spec's (rule or vector named at each); after them, for
every statement of Certificates/Slice0/Obligations.lean that has hypotheses, a witness that meets them all, for each clause
and at the boundaries of the ranges. -/

namespace Sys2Proof.Tests

set_option Elab.async false

open Sys2Proof.Machine

/-! ### Helpers -/

/-- The state of an outcome. -/
def after : Host.Outcome State Fault Refusal → Option State
  | .next s => some s
  | .fault _ => none
  | .refused _ => none

/-- The reply bytes an outcome leaves queued. -/
def queued (o : Host.Outcome State Fault Refusal) : Option (List Byte) := (after o).map (·.eng.txq)

/-- A payload of `n` bytes. -/
def bytes (n : Nat) : List Byte := List.replicate n 0x41#8

/-- A START payload: size 2048, the rest zero. -/
def startPayload : List Byte := [0x00#8, 0x08#8, 0x00#8, 0x00#8] ++ List.replicate 72 0x00#8

/-- A START payload whose size is the reset capacity 0x100000, and one whose size is one more. -/
def startAtCapacity : List Byte := [0x00#8, 0x00#8, 0x10#8, 0x00#8] ++ List.replicate 72 0x00#8
def startBeyond : List Byte := [0x01#8, 0x00#8, 0x10#8, 0x00#8] ++ List.replicate 72 0x00#8

/-- A state in `st` with `total` and `received` bytes; a handle is open in RECEIVING. -/
def session (st : SessionState) (total received : U32) (seq : U16) (checked : Bool) : State :=
  { State.reset with
    sess := ⟨st, .noError, total, received, 0, seq, checked, decide (st = .receiving), 77, 0xFFFFFFFF#32, 0⟩ }

/-- A transfer with 1024 of 2048 bytes received. -/
def receiving : State := session .receiving 2048#32 1024#32 1#16 true

/-- `s` with the backend's answers. -/
def State.answering (s : State) (a : List BkResp) : State := { s with env := { s.env with bkResp := a } }

/-- `s` about to run `i`. -/
def State.about (s : State) (i : Instr) : State := s.placeFrame (encode i)

/-- `s` waiting for the answer to `q`, in the middle of the instruction `i`. -/
def State.midway (s : State) (i : Instr) (q : BkReq) (k : Cont) (a : List BkResp) : State :=
  State.answering ((State.about s i).waiting q k) a

/-! ### WellFormed: an ill-formed term for each check -/

theorem test_wf_payload_1025_refused : Instr.wf (.data 0 0 (bytes 1025)) = false := by decide +kernel
theorem test_wf_payload_1024_accepted : Instr.wf (.data 0 0 (bytes 1024)) = true := by decide +kernel
theorem test_wf_params_version_field_outside_refused : Params.wf ⟨79, 48, false⟩ = false := by decide
theorem test_wf_params_defaults_accepted : Params.wf Params.defaults = true := by decide

/-! ### Decoding: a frame of every constructor, spelled out by the spec (V-ENC-1 to V-ENC-13) -/

theorem test_decode_start :
    decode [0xAA#8, 0x55#8, 0x01#8, 0x01#8, 0x00#8, 0x00#8, 0x00#8, 0x00#8, 0x00#8, 0x00#8, 0x00#8, 0x00#8, 0x3A#8,
      0x41#8, 0x55#8, 0xAA#8] =
      .instr (.start 0 0 []) := by decide +kernel
theorem test_decode_data :
    decode [0xAA#8, 0x55#8, 0x01#8, 0x02#8, 0x00#8, 0x00#8, 0x00#8, 0x00#8, 0x00#8, 0x00#8, 0x00#8, 0x00#8, 0x7E#8,
      0x6C#8, 0x55#8, 0xAA#8] =
      .instr (.data 0 0 []) := by decide +kernel
theorem test_decode_endTransfer :
    decode [0xAA#8, 0x55#8, 0x01#8, 0x03#8, 0x00#8, 0x00#8, 0x00#8, 0x00#8, 0x00#8, 0x00#8, 0x00#8, 0x00#8, 0x5D#8,
      0x87#8, 0x55#8, 0xAA#8] =
      .instr (.endTransfer 0 0 []) := by decide +kernel
theorem test_decode_abort :
    decode [0xAA#8, 0x55#8, 0x01#8, 0x04#8, 0x00#8, 0x00#8, 0x00#8, 0x00#8, 0x00#8, 0x00#8, 0x00#8, 0x00#8, 0xF6#8,
      0x36#8, 0x55#8, 0xAA#8] =
      .instr (.abort 0 0 []) := by decide +kernel
theorem test_decode_queryStatus :
    decode [0xAA#8, 0x55#8, 0x01#8, 0x05#8, 0x00#8, 0x00#8, 0x00#8, 0x00#8, 0x00#8, 0x00#8, 0x00#8, 0x00#8, 0xD5#8,
      0xDD#8, 0x55#8, 0xAA#8] =
      .instr (.queryStatus 0 0 []) := by decide +kernel
theorem test_decode_rollbackReq :
    decode [0xAA#8, 0x55#8, 0x01#8, 0x06#8, 0x00#8, 0x00#8, 0x00#8, 0x00#8, 0x00#8, 0x00#8, 0x00#8, 0x00#8, 0x91#8,
      0xF0#8, 0x55#8, 0xAA#8] =
      .instr (.rollbackReq 0 0 []) := by decide +kernel
theorem test_decode_ack :
    decode [0xAA#8, 0x55#8, 0x01#8, 0x81#8, 0x00#8, 0x00#8, 0x00#8, 0x00#8, 0x00#8, 0x00#8, 0x00#8, 0x00#8, 0x88#8,
      0xFE#8, 0x55#8, 0xAA#8] =
      .instr (.ack 0 0 []) := by decide +kernel
theorem test_decode_nack :
    decode [0xAA#8, 0x55#8, 0x01#8, 0x82#8, 0x00#8, 0x00#8, 0x00#8, 0x00#8, 0x00#8, 0x00#8, 0x00#8, 0x00#8, 0xCC#8,
      0xD3#8, 0x55#8, 0xAA#8] =
      .instr (.nack 0 0 []) := by decide +kernel
theorem test_decode_ready :
    decode [0xAA#8, 0x55#8, 0x01#8, 0x83#8, 0x00#8, 0x00#8, 0x00#8, 0x00#8, 0x00#8, 0x00#8, 0x00#8, 0x00#8, 0xEF#8,
      0x38#8, 0x55#8, 0xAA#8] =
      .instr (.ready 0 0 []) := by decide +kernel
theorem test_decode_progress :
    decode [0xAA#8, 0x55#8, 0x01#8, 0x84#8, 0x00#8, 0x00#8, 0x00#8, 0x00#8, 0x00#8, 0x00#8, 0x00#8, 0x00#8, 0x44#8,
      0x89#8, 0x55#8, 0xAA#8] =
      .instr (.progress 0 0 []) := by decide +kernel
theorem test_decode_complete :
    decode [0xAA#8, 0x55#8, 0x01#8, 0x85#8, 0x00#8, 0x00#8, 0x00#8, 0x00#8, 0x00#8, 0x00#8, 0x00#8, 0x00#8, 0x67#8,
      0x62#8, 0x55#8, 0xAA#8] =
      .instr (.complete 0 0 []) := by decide +kernel
theorem test_decode_error :
    decode [0xAA#8, 0x55#8, 0x01#8, 0x86#8, 0x00#8, 0x00#8, 0x00#8, 0x00#8, 0x00#8, 0x00#8, 0x00#8, 0x00#8, 0x23#8,
      0x4F#8, 0x55#8, 0xAA#8] =
      .instr (.error 0 0 []) := by decide +kernel
theorem test_decode_statusResp :
    decode [0xAA#8, 0x55#8, 0x01#8, 0x87#8, 0x00#8, 0x00#8, 0x00#8, 0x00#8, 0x00#8, 0x00#8, 0x00#8, 0x00#8, 0x00#8,
      0xA4#8, 0x55#8, 0xAA#8] =
      .instr (.statusResp 0 0 []) := by decide +kernel

/-- R105: sequence and offset little-endian. -/
theorem test_decode_operands :
    decode [0xAA#8, 0x55#8, 0x01#8, 0x05#8, 0x34#8, 0x12#8, 0xEF#8, 0xBE#8, 0xAD#8, 0xDE#8, 0x00#8, 0x00#8, 0x34#8,
      0xC1#8, 0x55#8, 0xAA#8] =
      .instr (.queryStatus 0x1234#16 0xDEADBEEF#32 []) := by decide +kernel
/-- V-ENC-16: every operand at its greatest value. -/
theorem test_decode_nack_operands :
    decode [0xAA#8, 0x55#8, 0x01#8, 0x82#8, 0xFF#8, 0xFF#8, 0xFF#8, 0xFF#8, 0xFF#8, 0xFF#8, 0x07#8, 0x00#8, 0x0F#8,
      0xFF#8, 0xFF#8, 0xFF#8, 0xFF#8, 0xFF#8, 0xFF#8, 0x62#8, 0x32#8, 0x55#8, 0xAA#8] =
      .instr (.nack 0xFFFF#16 0xFFFFFFFF#32 [0x0F#8, 0xFF#8, 0xFF#8, 0xFF#8, 0xFF#8, 0xFF#8, 0xFF#8]) := by
  decide +kernel
/-- V-ENC-22 (R152). -/
theorem test_encode_data :
    encode (.data 1 1024 [0x01#8, 0x02#8, 0x03#8]) =
      [0xAA#8, 0x55#8, 0x01#8, 0x02#8, 0x01#8, 0x00#8, 0x00#8, 0x04#8, 0x00#8, 0x00#8, 0x03#8, 0x00#8, 0x01#8,
      0x02#8, 0x03#8, 0x9B#8, 0x9D#8, 0x55#8, 0xAA#8] := by
  decide +kernel
/-- V-DEC-13: a reserved command decodes as a frame, to no instruction (R85). -/
theorem test_decode_reserved :
    decode [0xAA#8, 0x55#8, 0x01#8, 0x07#8, 0x00#8, 0x00#8, 0x00#8, 0x00#8, 0x00#8, 0x00#8, 0x00#8, 0x00#8, 0xB2#8,
      0x1B#8, 0x55#8, 0xAA#8] =
      .reserved ⟨0x07#8, 0, 0, 0, []⟩ := by decide +kernel

/-! ### Decode errors (R143) -/

/-- R143, V-DEC-2. -/
theorem test_decode_error_too_short :
    decode [0xAA#8, 0x55#8, 0x01#8, 0x05#8, 0x00#8, 0x00#8, 0x00#8, 0x00#8, 0x00#8, 0x00#8, 0x00#8, 0x00#8, 0xD5#8,
      0xDD#8, 0x55#8] =
      .bad .tooShort := by decide +kernel
/-- R143, V-DEC-3. -/
theorem test_decode_error_opening_marker :
    decode [0xAB#8, 0x55#8, 0x01#8, 0x05#8, 0x00#8, 0x00#8, 0x00#8, 0x00#8, 0x00#8, 0x00#8, 0x00#8, 0x00#8, 0xD5#8,
      0xDD#8, 0x55#8, 0xAA#8] =
      .bad .markersInvalid := by decide +kernel
/-- R143, V-DEC-6. -/
theorem test_decode_error_closing_marker :
    decode [0xAA#8, 0x55#8, 0x01#8, 0x05#8, 0x00#8, 0x00#8, 0x00#8, 0x00#8, 0x00#8, 0x00#8, 0x00#8, 0x00#8, 0xD5#8,
      0xDD#8, 0x55#8, 0xAB#8] =
      .bad .markersInvalid := by decide +kernel
/-- R143, V-DEC-7. -/
theorem test_decode_error_length :
    decode [0xAA#8, 0x55#8, 0x01#8, 0x05#8, 0x00#8, 0x00#8, 0x00#8, 0x00#8, 0x00#8, 0x00#8, 0x01#8, 0x00#8, 0xD5#8,
      0xDD#8, 0x55#8, 0xAA#8] =
      .bad .lengthMismatch := by decide +kernel
/-- R143, V-DEC-8. -/
theorem test_decode_error_crc :
    decode [0xAA#8, 0x55#8, 0x01#8, 0x05#8, 0x00#8, 0x00#8, 0x00#8, 0x00#8, 0x00#8, 0x00#8, 0x00#8, 0x00#8, 0x00#8,
      0x00#8, 0x55#8, 0xAA#8] =
      .bad .crcMismatch := by decide +kernel
/-- V-DEC-9. -/
theorem test_decode_error_crc_swapped :
    decode [0xAA#8, 0x55#8, 0x01#8, 0x05#8, 0x00#8, 0x00#8, 0x00#8, 0x00#8, 0x00#8, 0x00#8, 0x00#8, 0x00#8, 0xDD#8,
      0xD5#8, 0x55#8, 0xAA#8] =
      .bad .crcMismatch := by decide +kernel
/-- R143, V-DEC-10. -/
theorem test_decode_error_version :
    decode [0xAA#8, 0x55#8, 0x02#8, 0x05#8, 0x00#8, 0x00#8, 0x00#8, 0x00#8, 0x00#8, 0x00#8, 0x00#8, 0x00#8, 0x1A#8,
      0x6C#8, 0x55#8, 0xAA#8] =
      .bad .unsupportedVersion := by decide +kernel
/-- V-DEC-11. -/
theorem test_decode_error_version_and_crc :
    decode [0xAA#8, 0x55#8, 0x02#8, 0x05#8, 0x00#8, 0x00#8, 0x00#8, 0x00#8, 0x00#8, 0x00#8, 0x00#8, 0x00#8, 0xD5#8,
      0xDD#8, 0x55#8, 0xAA#8] =
      .bad .crcMismatch := by decide +kernel

/-! ### The framer (R170) -/

theorem test_framer_keeps_half_marker : feedBytes [] [0x11#8, 0x22#8, 0xAA#8] = ⟨[0xAA#8], [], []⟩ := by decide +kernel
theorem test_framer_finds_marker : feedBytes [] [0x55#8, 0xAA#8, 0x55#8] = ⟨[0xAA#8, 0x55#8], [], []⟩ := by decide +kernel
theorem test_framer_length_1025 :
    feedBytes [] [0xAA#8, 0x55#8, 0x01#8, 0x05#8, 0x00#8, 0x00#8, 0x00#8, 0x00#8, 0x00#8, 0x00#8, 0x01#8, 0x04#8] =
      ⟨[], [], [.frameInvalid]⟩ := by decide +kernel
theorem test_framer_length_1024 :
    (feedBytes [] [0xAA#8, 0x55#8, 0x01#8, 0x05#8, 0x00#8, 0x00#8, 0x00#8, 0x00#8, 0x00#8, 0x00#8, 0x00#8, 0x04#8]).buf.length =
      12 := by decide +kernel
/-- R170, the last example: a false frame swallows the start of a true one. -/
theorem test_framer_false_frame :
    feedBytes [] [0xAA#8, 0x55#8, 0xAA#8, 0x55#8, 0xAA#8, 0x55#8, 0x01#8, 0x05#8, 0x00#8, 0x00#8, 0x00#8, 0x00#8, 0x00#8,
      0x00#8, 0x00#8, 0x00#8, 0xD5#8, 0xDD#8, 0x55#8, 0xAA#8] =
      ⟨[0xAA#8],
        [[0xAA#8, 0x55#8, 0xAA#8, 0x55#8, 0xAA#8, 0x55#8, 0x01#8, 0x05#8, 0x00#8, 0x00#8, 0x00#8, 0x00#8, 0x00#8,
      0x00#8, 0x00#8, 0x00#8]], []⟩ := by
  decide +kernel

/-! ### The opcode table's words -/

theorem test_table_data : decodeTableWord 32 0xAA550102 = some (.data 0 0 []) := by decide +kernel
theorem test_table_error : decodeTableWord 32 0xAA550186 = some (.error 0 0 []) := by decide +kernel
theorem test_table_reserved : decodeTableWord 32 0xAA550107 = none := by decide +kernel
theorem test_fetch_word_runs :
    (after (step (State.reset.withFetchWord 32 0xAA550104))).map (·.eng.txq.length) = some 23 := by decide +kernel

/-! ### One step of each instruction (replies as the spec spells them) -/

/-- R196. -/
theorem test_start_begins :
    (after (exec (.start 0 0 startPayload) State.reset)).map (·.out.reqs) = some [.beginUpdate 2048#32] := by
  decide +kernel
/-- R196: READY(seq=0) after `OK`. -/
theorem test_start_ready :
    queued (step (State.midway State.reset (.start 0 0 startPayload) (.beginUpdate 2048#32) (.startBegin 0 2048#32 0#32)
      [.okHandle 5])) =
      some [0xAA#8, 0x55#8, 0x01#8, 0x83#8, 0x00#8, 0x00#8, 0x00#8, 0x00#8, 0x00#8, 0x00#8, 0x00#8, 0x00#8, 0xEF#8,
      0x38#8, 0x55#8, 0xAA#8] := by
  decide +kernel
/-- R256: the NACK of DATA(seq=5) in a fresh transfer. -/
theorem test_data_wrong_sequence :
    queued (exec (.data 5 0 [0x01#8]) (session .receiving 2048#32 0#32 0#16 false)) =
      some [0xAA#8, 0x55#8, 0x01#8, 0x82#8, 0x05#8, 0x00#8, 0x00#8, 0x00#8, 0x00#8, 0x00#8, 0x07#8, 0x00#8, 0x04#8,
      0x00#8, 0x00#8, 0x00#8, 0x00#8, 0x00#8, 0x00#8, 0x1C#8, 0x69#8, 0x55#8, 0xAA#8] := by
  decide +kernel
/-- R251, V-ENC-17: ACK and then PROGRESS(50%) after the first 1024 of 2048 bytes. -/
theorem test_data_ack_and_progress :
    queued (step (State.midway (session .receiving 2048#32 0#32 0#16 true) (.data 0 0 (bytes 1024))
      (.write 77 0#32 (bytes 1024)) (.dataWrite 0 (bytes 1024)) [.ok])) =
      some ([0xAA#8, 0x55#8, 0x01#8, 0x81#8, 0x00#8, 0x00#8, 0x00#8, 0x04#8, 0x00#8, 0x00#8, 0x07#8, 0x00#8, 0x00#8,
      0x01#8, 0x00#8, 0x00#8, 0x04#8, 0x00#8, 0x00#8, 0x6D#8, 0xE1#8, 0x55#8, 0xAA#8] ++
      [0xAA#8, 0x55#8, 0x01#8, 0x84#8, 0x00#8, 0x00#8, 0x00#8, 0x04#8, 0x00#8, 0x00#8, 0x09#8, 0x00#8, 0x00#8,
      0x04#8, 0x00#8, 0x00#8, 0x00#8, 0x08#8, 0x00#8, 0x00#8, 0x32#8, 0x0E#8, 0x9F#8, 0x55#8, 0xAA#8]) := by
  decide +kernel
/-- R236: END in IDLE leads to ERROR. -/
theorem test_end_in_idle :
    (after (exec (.endTransfer 0 0 []) State.reset)).map (·.sess.state) = some .error := by decide +kernel
/-- R215: COMPLETE(seq=2, off=2048). -/
theorem test_end_complete :
    queued (step (State.midway (session .verifying 2048#32 2048#32 2#16 true) (.endTransfer 2 0 []) (.setBoot 77)
      (.endSetBoot 2) [.ok])) =
      some [0xAA#8, 0x55#8, 0x01#8, 0x85#8, 0x02#8, 0x00#8, 0x00#8, 0x08#8, 0x00#8, 0x00#8, 0x00#8, 0x00#8, 0xEC#8,
      0xEF#8, 0x55#8, 0xAA#8] := by
  decide +kernel
/-- R221: ABORT(seq=3) in VERIFYING. -/
theorem test_abort_in_verifying :
    queued (exec (.abort 3 0 []) (session .verifying 2048#32 2048#32 2#16 true)) =
      some [0xAA#8, 0x55#8, 0x01#8, 0x81#8, 0x03#8, 0x00#8, 0x00#8, 0x00#8, 0x00#8, 0x00#8, 0x07#8, 0x00#8, 0x00#8,
      0x00#8, 0x00#8, 0x00#8, 0x00#8, 0x00#8, 0x00#8, 0xFC#8, 0x96#8, 0x55#8, 0xAA#8] := by
  decide +kernel
/-- R221: in RECEIVING one `ABORT(h)`. -/
theorem test_abort_releases_handle :
    (after (exec (.abort 3 0 []) receiving)).map (·.out.reqs) = some [.abortUpdate 77] := by decide +kernel
/-- R226, V-ENC-20. -/
theorem test_query_status :
    queued (exec (.queryStatus 7 0 []) State.reset) =
      some [0xAA#8, 0x55#8, 0x01#8, 0x87#8, 0x07#8, 0x00#8, 0x00#8, 0x00#8, 0x00#8, 0x00#8, 0x2A#8, 0x00#8, 0x00#8,
      0x00#8, 0x00#8, 0x00#8, 0x00#8, 0x00#8, 0x00#8, 0x00#8, 0x00#8, 0x00#8, 0x76#8, 0x31#8, 0x2E#8, 0x30#8,
      0x2E#8, 0x30#8, 0x00#8, 0x00#8, 0x00#8, 0x00#8, 0x00#8, 0x00#8, 0x00#8, 0x00#8, 0x00#8, 0x00#8, 0x00#8,
      0x00#8, 0x00#8, 0x00#8, 0x00#8, 0x00#8, 0x00#8, 0x00#8, 0x00#8, 0x00#8, 0x00#8, 0x00#8, 0x00#8, 0x00#8,
      0x00#8, 0x00#8, 0xDB#8, 0xFD#8, 0x55#8, 0xAA#8] := by
  decide +kernel
/-- R233: accepted. -/
theorem test_rollback_accepted :
    queued (exec (.rollbackReq 4 0 []) { State.reset with env := { Env.atReset with runningPart := 1 } }) =
      some [0xAA#8, 0x55#8, 0x01#8, 0x81#8, 0x04#8, 0x00#8, 0x00#8, 0x00#8, 0x00#8, 0x00#8, 0x07#8, 0x00#8, 0x00#8,
      0x00#8, 0x00#8, 0x00#8, 0x00#8, 0x00#8, 0x00#8, 0x6B#8, 0xEE#8, 0x55#8, 0xAA#8] := by
  decide +kernel
/-- R233: refused. -/
theorem test_rollback_refused :
    queued (exec (.rollbackReq 4 0 []) State.reset) =
      some [0xAA#8, 0x55#8, 0x01#8, 0x82#8, 0x04#8, 0x00#8, 0x00#8, 0x00#8, 0x00#8, 0x00#8, 0x07#8, 0x00#8, 0x0E#8,
      0x00#8, 0x00#8, 0x00#8, 0x00#8, 0x00#8, 0x00#8, 0xAE#8, 0x34#8, 0x55#8, 0xAA#8] := by
  decide +kernel
/-- R235. -/
theorem test_ack_is_unknown : (after (exec (.ack 1 0 []) receiving)).map (·.sess.lastError) = some .unknown := by decide +kernel
/-- R235. -/
theorem test_nack_is_unknown : (after (exec (.nack 1 0 []) receiving)).map (·.sess.lastError) = some .unknown := by decide +kernel
/-- R235. -/
theorem test_ready_is_unknown : (after (exec (.ready 1 0 []) receiving)).map (·.sess.lastError) = some .unknown := by decide +kernel
/-- R235. -/
theorem test_progress_is_unknown : (after (exec (.progress 1 0 []) receiving)).map (·.sess.lastError) = some .unknown := by decide +kernel
/-- R235. -/
theorem test_complete_is_unknown : (after (exec (.complete 1 0 []) receiving)).map (·.sess.lastError) = some .unknown := by decide +kernel
/-- R235. -/
theorem test_error_is_unknown : (after (exec (.error 1 0 []) receiving)).map (·.sess.lastError) = some .unknown := by decide +kernel
/-- R235. -/
theorem test_statusResp_is_unknown : (after (exec (.statusResp 1 0 []) receiving)).map (·.sess.lastError) = some .unknown := by decide +kernel

/-! ### Witnesses: the codec -/

theorem witness_DecodeEncodeRoundTrip : Instr.wf (.start 0xFFFF#16 0xFFFFFFFF#32 (bytes 1024)) = true := by decide +kernel
theorem witness_FrameRoundTrip : (bytes 1024).length ≤ 1024 ∧ (bytes 0).length ≤ 1024 := by decide +kernel
theorem witness_DecodedBytesAreTheEncoding :
    decode (encode (.abort 3 9 [0x07#8])) = .instr (.abort 3 9 [0x07#8]) ∧
      decodeFrame (encodeFrame 0x77#8 3 9 [0x07#8]) = .frame ⟨0x77#8, 3, 9, 1, [0x07#8]⟩ := by decide +kernel
theorem witness_EncodedFieldPositions : (bytes 1024).length ≤ 1024 ∧ (bytes 0).length ≤ 1024 := by decide +kernel
theorem witness_VersionIsCheckedAfterTheCrc : (bytes 1024).length ≤ 1024 ∧ (0x02#8 : Byte) ≠ 0x01#8 := by decide +kernel
/-- One position under each clause and at each clause's ends, for a payload of one byte (a frame of 17). -/
theorem witness_OneCorruptedByteNeverDecodes :
    ∀ k ∈ [0, 1, 2, 9, 10, 11, 12, 13, 14, 15, 16], k < 16 + (bytes 1).length ∧
      byteAt (encodeFrame 0x02#8 1 2 (bytes 1)) k + 1#8 ≠ byteAt (encodeFrame 0x02#8 1 2 (bytes 1)) k := by decide +kernel
theorem witness_Crc16SeesOneChangedByte : (0x00#8 : Byte) ≠ 0x80#8 := by decide

/-! ### Witnesses: the framer -/

/-- The three shapes of the rest, the third at its ends. -/
theorem witness_FramerCapacity :
    FramerRest [] ∧ FramerRest [0xAA#8] ∧ FramerRest [0xAA#8, 0x55#8] ∧
      FramerRest ((encodeFrame 0x02#8 0 0 (bytes 1024)).take 1039) := by decide +kernel
/-- The last byte of a frame extracts it; a byte before does not. -/
theorem witness_FramerCapacity_clauses :
    (scan ((encode (.abort 0 0 [])).take 15 ++ [0xAA#8])).frame = some (encode (.abort 0 0 [])) ∧
      (scan ((encode (.abort 0 0 [])).take 14 ++ [0x55#8])).frame = none := by decide +kernel
theorem witness_ScanNeverStalls : ([0xAA#8, 0x55#8] : List Byte).length < 3 := by decide
theorem witness_ChunksFrameLikeBytes : FramerRest ((encode (.abort 0 0 [])).take 15) := by decide +kernel
theorem witness_NoiseThenFrame :
    (bytes 1024).length ≤ 1024 ∧ findMarker ([0xAA#8] ++ [0x13#8, 0xAA#8]) = none ∧ findMarker ([] ++ []) = none := by
  decide +kernel

/-! ### Witnesses: the driver -/

/-- The hypotheses of the statements about the first step of EXEC. -/
abbrev FirstStep (s : State) : Prop := s.env.rst = false ∧ s.eng.phase = .exec ∧ s.eng.cont = none

theorem witness_StepRunsTheDecodedInstruction :
    FirstStep (State.about receiving (.abort 3 0 [])) ∧
      decode (State.about receiving (.abort 3 0 [])).eng.cur = .instr (.abort 3 0 []) := by decide +kernel
/-- An engine at rest (both rests) with a frame and one more byte offered. -/
def offered (buf : List Byte) (i : Instr) : State :=
  { State.reset with fbuf := buf, env := { Env.atReset with rx := encode i ++ [0xAA#8] } }
theorem witness_FrameBytesRunTheInstruction :
    ∀ buf ∈ [[], [0xAA#8]], Instr.wf (.abort 3 0 []) = true ∧ (offered buf (.abort 3 0 [])).Undisturbed ∧
      (offered buf (.abort 3 0 [])).eng.phase = .scan ∧
      ((offered buf (.abort 3 0 [])).fbuf = [] ∨ (offered buf (.abort 3 0 [])).fbuf = [0xAA#8]) ∧
      (offered buf (.abort 3 0 [])).env.rx = encode (.abort 3 0 []) ++ [0xAA#8] := by decide +kernel
/-- A frame with each of the five errors. -/
theorem witness_UndecodableFrameIsDropped :
    ∀ x ∈ [([], DecodeError.tooShort), (bytes 16, .markersInvalid), ((encode (.abort 0 0 [])).set 10 1#8, .lengthMismatch),
        ((encode (.abort 0 0 [])).set 4 1#8, .crcMismatch),
        (frameBody 0x02#8 4 0 0 [] ++ frameTrailer (frameBody 0x02#8 4 0 0 []), .unsupportedVersion)],
      FirstStep (State.reset.placeFrame x.1) ∧ decode (State.reset.placeFrame x.1).eng.cur = .bad x.2 := by decide +kernel
/-- The reserved codes at the ends of their ranges. -/
theorem witness_ReservedCodeIsNacked :
    ∀ c ∈ [0x00#8, 0x07#8, 0x80#8, 0x88#8, 0xFF#8],
      FirstStep (State.reset.placeFrame (encodeFrame c 1 0 [])) ∧
      decodeFrame (State.reset.placeFrame (encodeFrame c 1 0 [])).eng.cur = .frame ⟨c, 1, 0, 0, []⟩ ∧
      (c = 0x00#8 ∨ (0x07#8 ≤ c ∧ c ≤ 0x80#8) ∨ 0x88#8 ≤ c) := by decide +kernel
/-- A byte that completes no frame, and one that does. -/
theorem witness_ReceiveStep :
    (State.reset.env.rst = false ∧ (offered [] (.abort 3 0 [])).eng.phase = .scan ∧
      (offered [] (.abort 3 0 [])).env.rx = 0xAA#8 :: ((encode (.abort 3 0 [])).tail ++ [0xAA#8])) ∧
    (scan [0xAA#8]).frame = none ∧
    (scan ((encode (.abort 3 0 [])).take 15 ++ [0xAA#8])).frame = some (encode (.abort 3 0 [])) := by decide +kernel
/-- The four ways to wait. -/
theorem witness_EngineWaits :
    (State.reset.env.rst = false ∧ State.reset.eng.phase = .scan ∧ State.reset.env.rx = []) ∧
    (let s := State.midway receiving (.abort 0 0 []) (.abortUpdate 77) (.abortDone .finished) [];
      s.env.rst = false ∧ s.eng.phase = .exec ∧ s.eng.cont ≠ none ∧ s.env.bkResp = []) ∧
    (let s : State := { State.reset with
        eng := { Engine.reset with phase := .tx, txq := [1#8] }
        env := { Env.atReset with txReady := false } };
      s.env.rst = false ∧ s.eng.phase = .tx ∧ s.env.txReady = false) ∧
    (let s : State := { State.reset with eng := { Engine.reset with phase := .halt, halt := .restart } };
      s.env.rst = false ∧ s.eng.phase = .halt) := by decide +kernel
/-- A queue of one byte and a queue of two, with each halt request. -/
theorem witness_TransmitStep :
    ∀ q ∈ [[1#8], [1#8, 2#8]], ∀ h ∈ [HaltReq.noHalt, .restart, .rollback],
      let s : State := { State.reset with eng := { Engine.reset with phase := .tx, txq := q, halt := h } };
      s.Undisturbed ∧ s.eng.phase = .tx ∧ s.env.txReady = true ∧ s.eng.txq ≠ [] ∧ s.eng.txq = 1#8 :: q.tail := by
  decide +kernel
theorem witness_QueueIsSentInOrder :
    let s : State := { State.reset with eng := { Engine.reset with phase := .tx, txq := [1#8, 2#8], halt := .rollback } };
    s.Undisturbed ∧ s.eng.phase = .tx ∧ s.env.txReady = true ∧ s.eng.txq ≠ [] := by decide
/-- A halted engine of either request, with an entry of `later` that does not reset it. -/
theorem witness_HaltIsLeftOnlyByReset :
    ∀ h ∈ [HaltReq.restart, .rollback],
      let s : State := { State.reset with
        eng := { Engine.reset with phase := .halt, halt := h }, later := [none, some Env.atReset] }
      s.NeverReset ∧ s.eng.phase = .halt ∧ s.eng.halt = h := by simp [State.NeverReset, State.reset, Env.atReset]
/-- A reset at rest, and one with a request outstanding and its answer there. -/
theorem witness_ResetStep :
    (let s : State := { State.reset with env := { Env.atReset with rst := true } };
      s.env.rst = true ∧ ¬(s.eng.phase = .exec ∧ s.eng.cont ≠ none)) ∧
    (let t := State.midway receiving (.abort 0 0 []) (.abortUpdate 77) (.abortDone .finished) [.done];
      let s : State := { t with env := { t.env with rst := true } };
      s.env.rst = true ∧ s.eng.phase = .exec ∧ s.eng.cont ≠ none) := by decide +kernel

/-! ### Witnesses: the commands -/

/-- RECEIVING; a payload of 75 bytes; no partition, and a size one above the capacity, with 76 bytes. -/
theorem witness_StartRefusals :
    (receiving.sess.state ≠ .idle ∧ receiving.sess.state ≠ .error) ∧
    ((State.reset.sess.state = .idle ∨ State.reset.sess.state = .error) ∧ (bytes 75).length < 76) ∧
    (76 ≤ startBeyond.length ∧ State.reset.env.updCapacity = some 0x100000#32 ∧ 0x100000#32 < le32 startBeyond 0) ∧
    (let s : State := { State.reset with env := { Env.atReset with updCapacity := none } };
      s.env.updCapacity = none ∧ 76 ≤ startPayload.length) := by decide +kernel
/-- From IDLE and from ERROR, the size equal to the capacity, a payload of 76 bytes. -/
theorem witness_StartCompletes :
    ∀ st ∈ [SessionState.idle, .error],
      let s := State.answering (session st 0#32 0#32 0#16 false) [.okHandle 5];
      s.Undisturbed ∧ (s.sess.state = .idle ∨ s.sess.state = .error) ∧ 76 ≤ startAtCapacity.length ∧
        startAtCapacity.length = 76 ∧ s.env.updCapacity = some 0x100000#32 ∧ le32 startAtCapacity 0 ≤ 0x100000#32 ∧
        le32 startAtCapacity 0 = 0x100000#32 ∧ s.env.bkResp = .okHandle 5 :: [] := by decide +kernel
theorem witness_BeginAnswered :
    ∀ a ∈ [BkResp.okHandle 5, .err],
      let w := State.midway State.reset (.start 0 0 startPayload) (.beginUpdate 2048#32) (.startBegin 0 2048#32 0#32) [a];
      w.env.rst = false ∧ w.eng.phase = .exec ∧ w.eng.cont = some ⟨.beginUpdate 2048#32, .startBegin 0 2048#32 0#32⟩ ∧
        w.env.bkResp = a :: [] := by decide +kernel
theorem witness_DataAndEndOutsideReceiving :
    ∀ st ∈ [SessionState.idle, .error, .verifying], (session st 0#32 0#32 0#16 false).sess.state ≠ .receiving := by decide
/-- The sequence one below (a retransmission) with a wrong offset too; the sequence right, the offset one above. -/
theorem witness_DataOrderChecks :
    receiving.sess.state = .receiving ∧ (0#16 : U16) ≠ receiving.sess.expectedSequence ∧
      (1#16 : U16) = receiving.sess.expectedSequence ∧ (1025#32 : U32) ≠ receiving.sess.receivedBytes := by decide
theorem witness_HeaderCheckRule : ([1#8, 0#8] : List Byte).length = 2 ∧ cstr [1#8, 0#8] = [1#8] := by decide
/-- A first payload one byte short, and a full one whose version is the refused one. -/
theorem witness_HeaderRejectionAborts :
    let s := session .receiving 2048#32 0#32 0#16 false;
    s.sess.state = .receiving ∧ s.sess.handleOpen = true ∧ (0#16 : U16) = s.sess.expectedSequence ∧
      (0#32 : U32) = s.sess.receivedBytes ∧ s.sess.imageHeaderChecked = false ∧
      imageHeaderOK s.params s.env.lastInvalidVer (bytes 287) = false ∧
      imageHeaderOK s.params (some (Vector.replicate 32 0x41#8)) (bytes 288) = false := by decide +kernel
/-- A later frame of no bytes, a first frame of 288, and one that reaches 100%. -/
theorem witness_DataCompletes :
    (let s := State.answering receiving [.ok];
      s.Undisturbed ∧ s.sess.state = .receiving ∧ (1#16 : U16) = s.sess.expectedSequence ∧
        (1024#32 : U32) = s.sess.receivedBytes ∧ s.sess.imageHeaderChecked = true ∧ s.env.bkResp = .ok :: [] ∧
        (s.sess.progressDecile : Nat) < percent (1024#32 + BitVec.ofNat 32 1024) s.sess.totalBytes / 10) ∧
    (let s := State.answering (session .receiving 4096#32 0#32 0#16 false) [.ok];
      s.Undisturbed ∧ s.sess.state = .receiving ∧ (0#16 : U16) = s.sess.expectedSequence ∧
        (0#32 : U32) = s.sess.receivedBytes ∧ imageHeaderOK s.params s.env.lastInvalidVer (bytes 288) = true ∧
        s.env.bkResp = .ok :: [] ∧
        ¬((s.sess.progressDecile : Nat) < percent (0#32 + BitVec.ofNat 32 288) s.sess.totalBytes / 10)) := by
  decide +kernel

/-- A write outstanding, with the backend's answer. -/
def writing (a : BkResp) : State :=
  State.midway receiving (.data 1 1024 [7#8, 8#8]) (.write 77 1024#32 [7#8, 8#8]) (.dataWrite 1 [7#8, 8#8]) [a]

theorem writing_Inv (a : BkResp) : (writing a).Inv := by
  refine ⟨?_, ?_, ?_, ?_, ?_, ?_⟩
  · exact (by decide : receiving.sess.Inv)
  · show HaltReq.noHalt = .noHalt ∧ ([] : List Byte) = [] ∧ Candidate (encode (.data 1 1024 [7#8, 8#8])) ∧
      (BkReq.write 77 1024#32 [7#8, 8#8] = .write 77 1024#32 [7#8, 8#8] ∧ ([] : List Byte) = [] ∧
        SessionState.receiving = .receiving ∧ true = true ∧ 2 ≤ 1024)
    decide +kernel
  · exact (by decide : receiving.HaltInv)
  · exact (by decide : 0 ≤ 58)
  · exact (by decide : Memory.wf [])
  · exact fun _ => rfl

theorem witness_PayloadReachesTheImage :
    (writing .ok).Inv ∧ (writing .ok).env.rst = false ∧ (writing .ok).eng.phase = .exec ∧
      (writing .ok).eng.cont = some ⟨.write 77 1024#32 [7#8, 8#8], .dataWrite 1 [7#8, 8#8]⟩ ∧
      (writing .ok).env.bkResp = .ok :: [] ∧ (writing .ok).sess.expectedSequence = 1 ∧
      ∃ t, step (writing .ok) = .next t :=
  ⟨writing_Inv _, rfl, rfl, rfl, rfl, rfl, _, rfl⟩
theorem witness_WriteRefused :
    (writing .err).env.rst = false ∧ (writing .err).eng.phase = .exec ∧
      (writing .err).eng.cont = some ⟨.write 77 1024#32 [7#8, 8#8], .dataWrite 1 [7#8, 8#8]⟩ ∧
      (writing .err).sess.handleOpen = true ∧ (writing .err).env.bkResp = .err :: [] := ⟨rfl, rfl, rfl, rfl, rfl⟩
/-- The accepted frame, and a state with the session it leaves. -/
theorem witness_RetransmissionIsRefused :
    (writing .ok).Inv ∧ (writing .ok).env.rst = false ∧ (writing .ok).eng.phase = .exec ∧
      (writing .ok).eng.cont = some ⟨.write 77 1024#32 [7#8, 8#8], .dataWrite 1 [7#8, 8#8]⟩ ∧
      (writing .ok).sess.expectedSequence = 1 ∧ (writing .ok).env.bkResp = .ok :: [] ∧
      ∃ t u : State, step (writing .ok) = .next t ∧ u.sess = t.sess :=
  ⟨writing_Inv _, rfl, rfl, rfl, rfl, rfl, _, _, rfl, rfl⟩
/-- One byte short; every byte there with another CRC-32. -/
theorem witness_EndChecks :
    (let s := session .receiving 2048#32 2047#32 2#16 true;
      s.sess.state = .receiving ∧ s.sess.handleOpen = true ∧ s.sess.receivedBytes ≠ s.sess.totalBytes) ∧
    (let t := session .receiving 2048#32 2048#32 2#16 true;
      let s : State := { t with
        params := { Params.defaults with verifyCrc32 := true }, sess := { t.sess with firmwareCRC32 := 1#32 } };
      s.sess.state = .receiving ∧ s.sess.handleOpen = true ∧ s.sess.receivedBytes = s.sess.totalBytes ∧
        s.params.verifyCrc32 = true ∧ s.sess.imageCRC32 ^^^ 0xFFFFFFFF#32 ≠ s.sess.firmwareCRC32) := by decide
/-- Without the CRC-32 check, and with it and equal values. -/
theorem witness_EndCompletes :
    ∀ v ∈ [false, true],
      let t := State.answering (session .receiving 2048#32 2048#32 2#16 true) [.ok, .ok];
      let s : State := { t with params := { Params.defaults with verifyCrc32 := v } };
      s.Undisturbed ∧ s.sess.state = .receiving ∧ s.sess.receivedBytes = s.sess.totalBytes ∧
        (s.params.verifyCrc32 = false ∨ s.sess.imageCRC32 ^^^ 0xFFFFFFFF#32 = s.sess.firmwareCRC32) ∧
        s.env.bkResp = .ok :: .ok :: [] := by decide
theorem witness_EndRefusedByTheBackend :
    ∀ x ∈ [(BkReq.endUpdate 77, Cont.endEnd 2), (.setBoot 77, .endSetBoot 2)],
      let w := State.midway (session .verifying 2048#32 2048#32 2#16 true) (.endTransfer 2 0 []) x.1 x.2 [.err];
      w.env.rst = false ∧ w.eng.phase = .exec ∧ w.env.bkResp = .err :: [] ∧ w.eng.cont = some ⟨x.1, x.2⟩ := by
  decide +kernel
theorem witness_AbortCompletes :
    (session .verifying 2048#32 2048#32 2#16 true).sess.handleOpen = false ∧
    (let s := State.answering receiving [.done];
      s.sess.handleOpen = true ∧ s.Undisturbed ∧ s.env.bkResp = .done :: []) := by decide
theorem witness_FailureAbortEnds :
    let w := State.midway receiving (.data 1 1024 []) (.abortUpdate 77) (.abortDone .finished) [.done];
    w.env.rst = false ∧ w.eng.phase = .exec ∧ w.eng.cont = some ⟨.abortUpdate 77, .abortDone .finished⟩ ∧
      w.env.bkResp = .done :: [] := by decide +kernel
theorem witness_RollbackReqCompletes :
    (let s : State := { State.reset with env := { Env.atReset with runningPart := 1 } };
      s.env.runningPart ≠ s.env.bootPart) ∧ State.reset.env.runningPart = State.reset.env.bootPart := by decide
/-- Two START payloads of 76 and 80 bytes with the same first eight, and two short ones. -/
theorem witness_IgnoredOperands :
    ((76 ≤ startPayload.length ↔ 76 ≤ (startPayload ++ bytes 4).length) ∧
      startPayload.take 8 = (startPayload ++ bytes 4).take 8 ∧ startPayload ≠ startPayload ++ bytes 4) ∧
    ((76 ≤ (bytes 75).length ↔ 76 ≤ (bytes 9).length) ∧ (bytes 75).take 8 = (bytes 9).take 8) := by decide +kernel
theorem witness_PercentageRule : (1#32 : U32).toNat < (0xFFFFFFFF#32 : U32).toNat := by decide
theorem offered_Inv (i : Instr) : (offered [] i).Inv := by
  refine ⟨(by decide : Session.reset.Inv), ?_, (by decide : State.reset.HaltInv), (by decide : 0 ≤ 58),
    (by decide : Memory.wf []), fun _ => rfl⟩
  show ([] : List Byte) = [] ∧ HaltReq.noHalt = .noHalt ∧ (none : Option Pending) = none ∧ FramerRest []
  decide
theorem witness_QueryStatusTransaction :
    (bytes 0).length ≤ 1024 ∧ (offered [] (.queryStatus 7 0 [])).Undisturbed ∧ (offered [] (.queryStatus 7 0 [])).Inv ∧
      (offered [] (.queryStatus 7 0 [])).eng.phase = .scan ∧ (offered [] (.queryStatus 7 0 [])).fbuf = [] ∧
      (offered [] (.queryStatus 7 0 [])).env.txReady = true ∧
      (offered [] (.queryStatus 7 0 [])).env.rx = encode (.queryStatus 7 0 []) ++ [0xAA#8] :=
  ⟨by decide, ⟨rfl, rfl⟩, offered_Inv _, rfl, rfl, rfl, rfl⟩

/-! ### Witnesses: the whole machine -/

theorem witness_EveryStepKeepsTheInvariant :
    (writing .ok).Inv ∧ (writing .ok).env.rst = false ∧ ∃ t, step (writing .ok) = .next t :=
  ⟨writing_Inv _, rfl, _, rfl⟩
theorem witness_NoStepFaults : (writing .ok).Inv ∧ (writing .ok).AnswerFits := by
  refine ⟨writing_Inv _, fun q hq a ha => ?_⟩
  have h1 : (writing .ok).bkReq = some (.write 77 1024#32 [7#8, 8#8]) := rfl
  have h2 : (writing .ok).env.bkResp.head? = some .ok := rfl
  rw [h1] at hq; rw [h2] at ha; cases hq; cases ha; rfl
/-- DATA in IDLE, the move to ERROR. -/
theorem witness_SessionStateMoves :
    (State.about State.reset (.data 0 0 [])).Inv ∧ (State.about State.reset (.data 0 0 [])).env.rst = false ∧
      (after (step (State.about State.reset (.data 0 0 [])))).map (·.sess.state) = some .error := by
  refine ⟨⟨(by decide : Session.reset.Inv), ?_, (by decide : State.reset.HaltInv), (by decide : 0 ≤ 58),
    (by decide : Memory.wf []), fun _ => rfl⟩, rfl, by decide +kernel⟩
  show HaltReq.noHalt = .noHalt ∧ ([] : List Byte) = [] ∧ Candidate (encode (.data 0 0 [])) ∧ ([] : List Byte) = []
  decide +kernel
/-- A NACK that sets it, and a START that clears it. -/
theorem witness_LastErrorChanges :
    (State.about State.reset (.data 0 0 [])).env.rst = false ∧
    (after (step (State.about State.reset (.data 0 0 [])))).map (·.sess.lastError) = some .invalidState ∧
    (let w := State.midway (session .error 0#32 0#32 0#16 false) (.start 0 0 startPayload) (.beginUpdate 2048#32)
        (.startBegin 0 2048#32 0#32) [.okHandle 5];
      let s : State := { w with sess := { w.sess with lastError := .seq } };
      s.env.rst = false ∧ (after (step s)).map (·.sess.lastError) = some .noError) := by decide +kernel
theorem witness_RepliesQueued :
    (writing .ok).env.rst = false ∧ ∃ t, step (writing .ok) = .next t := ⟨rfl, _, rfl⟩
theorem witness_PortsMoveOnlyInTheirPhases :
    (writing .ok).env.rst = false ∧ ∃ u, (writing .ok).transition = .next u := ⟨rfl, _, rfl⟩
theorem witness_OneRequestAtATime :
    (writing .err).env.rst = false ∧
      (after (step (writing .err))).map (·.out.reqs.length) = some ((writing .err).out.reqs.length + 1) := by decide +kernel
theorem witness_WritesFollowTheCount :
    (writing .ok).Inv ∧ (writing .ok).env.rst = false ∧
      (after (step (writing .ok))).map (·.sess.receivedBytes) = some 1026#32 :=
  ⟨writing_Inv _, rfl, by decide +kernel⟩
/-- One step that issues a write. -/
theorem witness_WritesAreContiguous :
    (State.about receiving (.data 1 1024 [7#8])).Inv ∧ (State.about receiving (.data 1 1024 [7#8])).NeverReset ∧
      (State.about receiving (.data 1 1024 [7#8])).bkReq = none ∧
      (after (run 1 (State.about receiving (.data 1 1024 [7#8])))).map (·.out.reqs) =
        some [.write 77 1024#32 [7#8]] := by
  refine ⟨⟨(by decide : receiving.sess.Inv), ?_, (by decide : receiving.HaltInv), (by decide : 0 ≤ 58),
    (by decide : Memory.wf []), fun _ => rfl⟩, ⟨rfl, fun e he => ?_⟩, rfl, by decide +kernel⟩
  · show HaltReq.noHalt = .noHalt ∧ ([] : List Byte) = [] ∧ Candidate (encode (.data 1 1024 [7#8])) ∧
      ([] : List Byte) = []
    decide +kernel
  · exact absurd he (by simp [State.about, receiving, session, State.placeFrame, State.reset])

end Sys2Proof.Tests
end

section
/-! PROOFS. The little-endian fields (spec/00_scope.md R12, 20_memory.md R62). -/

namespace Sys2Proof

/-- A word put above another has the value of the two digits: the shifted part and the lower part share no bit. -/
theorem toNat_zeroExtend_or_shiftLeft {n m k : Nat} (x : BitVec n) (y : BitVec m) (h : n + m ≤ k) :
    (x.zeroExtend k ||| (y.zeroExtend k <<< n)).toNat = x.toNat + 2 ^ n * y.toNat := by
  have hx : x.toNat < 2 ^ k := Nat.lt_of_lt_of_le x.isLt (Nat.pow_le_pow_right (by decide) (by omega))
  have hy : y.toNat < 2 ^ k := Nat.lt_of_lt_of_le y.isLt (Nat.pow_le_pow_right (by decide) (by omega))
  have hshift : y.toNat <<< n < 2 ^ k :=
    calc y.toNat <<< n = 2 ^ n * y.toNat := by rw [Nat.shiftLeft_eq, Nat.mul_comm]
      _ < 2 ^ n * 2 ^ m := Nat.mul_lt_mul_of_pos_left y.isLt (Nat.two_pow_pos n)
      _ = 2 ^ (n + m) := (Nat.pow_add 2 n m).symm
      _ ≤ 2 ^ k := Nat.pow_le_pow_right (by decide) h
  have hsum : 2 ^ n * y.toNat + x.toNat = y.toNat <<< n ||| x.toNat := by
    rw [← Nat.shiftLeft_add_eq_or_of_lt x.isLt, Nat.shiftLeft_eq, Nat.mul_comm]
  simp only [BitVec.toNat_or, BitVec.toNat_shiftLeft, BitVec.truncate_eq_setWidth, BitVec.toNat_setWidth,
    Nat.mod_eq_of_lt hx, Nat.mod_eq_of_lt hy, Nat.mod_eq_of_lt hshift]
  rw [Nat.or_comm, ← hsum, Nat.add_comm]

theorem toNat_le16 (b : List Byte) (i : Nat) :
    (le16 b i).toNat = (byteAt b i).toNat + 2 ^ 8 * (byteAt b (i + 1)).toNat :=
  toNat_zeroExtend_or_shiftLeft _ _ (by decide)

theorem toNat_le32_eq_halves (b : List Byte) (i : Nat) :
    (le32 b i).toNat = (le16 b i).toNat + 2 ^ 16 * (le16 b (i + 2)).toNat :=
  toNat_zeroExtend_or_shiftLeft _ _ (by decide)

theorem toNat_le32 (b : List Byte) (i : Nat) :
    (le32 b i).toNat =
      (byteAt b i).toNat + 2 ^ 8 * (byteAt b (i + 1)).toNat + 2 ^ 16 * (byteAt b (i + 2)).toNat +
        2 ^ 24 * (byteAt b (i + 3)).toNat := by
  have hhigh : (le16 b (i + 2)).toNat = (byteAt b (i + 2)).toNat + 2 ^ 8 * (byteAt b (i + 3)).toNat :=
    toNat_le16 b (i + 2)
  rw [toNat_le32_eq_halves, toNat_le16 b i, hhigh]
  omega

theorem le16_bytes16 (v : U16) : le16 (bytes16 v) 0 = v := le16_of_bytes v _ 0 rfl rfl

theorem le32_bytes32 (v : U32) : le32 (bytes32 v) 0 = v := le32_of_bytes v _ 0 rfl rfl rfl rfl

/-- Settles O5: the values by placing one word above another, the round trips by the bytes written. -/
theorem fieldsAreLittleEndian : Obligations.FieldsAreLittleEndian :=
  ⟨toNat_le16, toNat_le32, le16_bytes16, le32_bytes32⟩

end Sys2Proof
end

section
/-! PROOFS. What a receive step leaves in the framer's buffer and what it extracts (spec/42_framer.md R162 to R166), and how
long the payload of a decoded candidate is (41_codec.md R140). -/

namespace Sys2Proof.Machine

/-! ### Markers -/

theorem findMarker_of_startsWithMarker {b : List Byte} (hlen : 2 ≤ b.length) (h : StartsWithMarker b) :
    findMarker b = some 0 := by
  match b, hlen, h with
  | x :: y :: r, _, ⟨hx, hy⟩ =>
    have hx' : x = 0xAA#8 := hx
    have hy' : y = 0x55#8 := hy
    simp [findMarker, hx', hy']

theorem startsWithMarker_drop_of_findMarker : ∀ (b : List Byte) (p : Nat), findMarker b = some p →
    StartsWithMarker (b.drop p)
  | [], _, h => by simp [findMarker] at h
  | [_], _, h => by simp [findMarker] at h
  | x :: y :: r, p, h => by
    unfold findMarker at h
    split_ifs at h with hxy
    · cases h
      exact hxy
    · obtain ⟨q, hq, rfl⟩ := Option.map_eq_some_iff.1 h
      exact startsWithMarker_drop_of_findMarker (y :: r) q hq

theorem startsWithMarker_append {a : List Byte} (b : List Byte) (hlen : 2 ≤ a.length) (h : StartsWithMarker a) :
    StartsWithMarker (a ++ b) :=
  ⟨(byteAt_append_left a b 0 (by omega)).trans h.1, (byteAt_append_left a b 1 (by omega)).trans h.2⟩

theorem byteAt_take (b : List Byte) {k i : Nat} (hi : i < k) (hk : k ≤ b.length) : byteAt (b.take k) i = byteAt b i := by
  conv_rhs => rw [← List.take_append_drop k b]
  exact (byteAt_append_left _ _ i (by rw [List.length_take]; omega)).symm

theorem le16_take (b : List Byte) {k i : Nat} (hi : i + 1 < k) (hk : k ≤ b.length) : le16 (b.take k) i = le16 b i := by
  simp only [le16, byteAt_take b hi hk, byteAt_take b (Nat.lt_of_succ_lt hi) hk]

theorem candidate_take {b : List Byte} (hmark : StartsWithMarker b) (hmax : (le16 b 10).toNat ≤ 1024)
    (hlen : 16 + (le16 b 10).toNat ≤ b.length) : Candidate (b.take (16 + (le16 b 10).toNat)) := by
  have hfield : le16 (b.take (16 + (le16 b 10).toNat)) 10 = le16 b 10 := le16_take b (by omega) hlen
  refine ⟨⟨?_, ?_⟩, by rwa [hfield], by rw [hfield, List.length_take]; omega⟩
  · exact (byteAt_take b (by omega) hlen).trans hmark.1
  · exact (byteAt_take b (by omega) hlen).trans hmark.2

/-! ### One turn of the scan's loop (R162) -/

theorem scanLoop_of_noMarker (n : Nat) {b : List Byte} (h : findMarker b = none) :
    scanLoop (n + 1) b = ⟨keepHalfMarker b, none, []⟩ := by
  rw [scanLoop, h]

theorem scanLoop_of_marker (n : Nat) {b : List Byte} {p : Nat} (h : findMarker b = some p) :
    scanLoop (n + 1) b =
      if (b.drop p).length < 12 then ⟨b.drop p, none, []⟩
      else if 1024 < (le16 (b.drop p) 10).toNat then
        ⟨(scanLoop n ((b.drop p).drop 2)).buf, (scanLoop n ((b.drop p).drop 2)).frame,
          .frameInvalid :: (scanLoop n ((b.drop p).drop 2)).drops⟩
      else if (b.drop p).length < 16 + (le16 (b.drop p) 10).toNat then ⟨b.drop p, none, []⟩
      else ⟨(b.drop p).drop (16 + (le16 (b.drop p) 10).toNat), some ((b.drop p).take (16 + (le16 (b.drop p) 10).toNat)),
        []⟩ := by
  have hsum : 12 + (le16 (b.drop p) 10).toNat + 4 = 16 + (le16 (b.drop p) 10).toNat := by omega
  rw [scanLoop, h]
  simp only [Config.hdrLen, Config.ftrLen, Config.maxPayload, hsum]

/-! ### The scan -/

theorem framerRest_keepHalfMarker (b : List Byte) : FramerRest (keepHalfMarker b) :=
  (keepHalfMarker_cases b).imp id .inl

/-- Whatever the buffer was, a scan that extracts nothing leaves a rest of the shapes of R166. -/
theorem framerRest_scanLoop : ∀ (n : Nat) (b : List Byte), b.length < n → (scanLoop n b).frame = none →
    FramerRest (scanLoop n b).buf
  | 0, _, hn, _ => absurd hn (by omega)
  | n + 1, b, hn, hnone => by
    cases hp : findMarker b with
    | none => rw [scanLoop_of_noMarker n hp]; exact framerRest_keepHalfMarker b
    | some p =>
      have hin : p + 2 ≤ b.length := findMarker_lt b p hp
      have hmark : StartsWithMarker (b.drop p) := startsWithMarker_drop_of_findMarker b p hp
      have htwo : 2 ≤ (b.drop p).length := by rw [List.length_drop]; omega
      rw [scanLoop_of_marker n hp] at hnone ⊢
      split_ifs at hnone ⊢ with hheader hlong hshort
      · exact .inr (.inr ⟨htwo, hmark, .inl hheader⟩)
      · exact framerRest_scanLoop n _ (by simp only [List.length_drop]; omega) hnone
      · exact .inr (.inr ⟨htwo, hmark, .inr ⟨Nat.not_lt.1 hlong, hshort⟩⟩)

/-- Whatever the buffer was, what a scan extracts is a candidate frame (R165). -/
theorem candidate_scanLoop : ∀ (n : Nat) (b f : List Byte), (scanLoop n b).frame = some f → Candidate f
  | 0, _, _, h => nomatch h
  | n + 1, b, f, h => by
    cases hp : findMarker b with
    | none => rw [scanLoop_of_noMarker n hp] at h; cases h
    | some p =>
      rw [scanLoop_of_marker n hp] at h
      split_ifs at h with hheader hlong hshort
      · exact candidate_scanLoop n _ f h
      · cases h
        exact candidate_take (startsWithMarker_drop_of_findMarker b p hp) (Nat.not_lt.1 hlong) (Nat.not_lt.1 hshort)

theorem scanLoop_frame_of_short : ∀ (n : Nat) (b : List Byte), b.length < 12 → (scanLoop n b).frame = none
  | 0, _, _ => rfl
  | n + 1, b, hb => by
    cases hp : findMarker b with
    | none => rw [scanLoop_of_noMarker n hp]
    | some p => rw [scanLoop_of_marker n hp, if_pos (by rw [List.length_drop]; omega)]

/-- The byte that completes a rest's header or frame completes no more than that (R166). -/
theorem lengthField_append_of_incomplete {buf : List Byte} (b : Byte) (hlen : 12 ≤ buf.length)
    (hinc : buf.length < 12 ∨ ((le16 buf 10).toNat ≤ 1024 ∧ buf.length < 16 + (le16 buf 10).toNat)) :
    (le16 (buf ++ [b]) 10).toNat ≤ 1024 ∧ (buf ++ [b]).length ≤ 16 + (le16 (buf ++ [b]) 10).toNat := by
  rw [le16_append_left buf [b] 10 (by omega), List.length_append, List.length_singleton]
  omega

/-- One more byte on a rest completes at most one frame, the whole buffer, and leaves nothing of it (R166). -/
theorem scan_append_of_framerRest {buf f : List Byte} {b : Byte} (hrest : FramerRest buf)
    (hf : (scan (buf ++ [b])).frame = some f) : (scan (buf ++ [b])).buf = [] ∧ f = buf ++ [b] := by
  have hlen : (buf ++ [b]).length = buf.length + 1 := by simp
  have hlong : 12 ≤ (buf ++ [b]).length := by
    by_contra hshort
    rw [scan, scanLoop_frame_of_short _ _ (Nat.not_le.1 hshort)] at hf
    cases hf
  rcases hrest with rfl | rfl | ⟨htwo, hmark, hinc⟩
  · exact absurd hlong (by simp)
  · exact absurd hlong (by simp)
  · have hfound : findMarker (buf ++ [b]) = some 0 :=
      findMarker_of_startsWithMarker (by omega) (startsWithMarker_append [b] htwo hmark)
    have hfield := fun h => lengthField_append_of_incomplete b h hinc
    rw [scan, scanLoop_of_marker _ hfound, List.drop_zero] at hf ⊢
    split_ifs at hf ⊢ with hheader hbig hpart
    · have hshort : ((buf ++ [b]).drop 2).length < 12 := by
        rw [List.length_drop]
        by_contra
        have := hfield (by omega)
        omega
      rw [scanLoop_frame_of_short _ _ hshort] at hf
      cases hf
    · have hwhole : (buf ++ [b]).length ≤ 16 + (le16 (buf ++ [b]) 10).toNat := by
        rcases Nat.lt_or_ge buf.length 12 with h | h
        · omega
        · exact (hfield h).2
      cases hf
      exact ⟨List.drop_of_length_le hwhole, List.take_of_length_le hwhole⟩

/-- R166 for a receive step: a rest of its shapes, or the candidate frame with nothing left. -/
theorem scan_append_cases {buf : List Byte} (b : Byte) (hrest : FramerRest buf) :
    ((scan (buf ++ [b])).frame = none ∧ FramerRest (scan (buf ++ [b])).buf) ∨
    ((scan (buf ++ [b])).frame = some (buf ++ [b]) ∧ (scan (buf ++ [b])).buf = [] ∧ Candidate (buf ++ [b])) := by
  cases hf : (scan (buf ++ [b])).frame with
  | none => exact .inl ⟨rfl, framerRest_scanLoop _ _ (Nat.lt_succ_self _) hf⟩
  | some f =>
    obtain ⟨hbuf, rfl⟩ := scan_append_of_framerRest hrest hf
    exact .inr ⟨rfl, hbuf, candidate_scanLoop _ _ _ hf⟩

/-! ### A receive step, field by field (R160): what it leaves as it was -/

section
variable (s : State) (b : Byte)

@[simp] theorem State.rxStep_sess : (s.rxStep b).sess = s.sess := by
  rcases s.rxStep_cases b with ⟨-, h⟩ | ⟨_, -, h⟩ <;> rw [h]
@[simp] theorem State.rxStep_env : (s.rxStep b).env = s.env := by
  rcases s.rxStep_cases b with ⟨-, h⟩ | ⟨_, -, h⟩ <;> rw [h]
@[simp] theorem State.rxStep_later : (s.rxStep b).later = s.later := by
  rcases s.rxStep_cases b with ⟨-, h⟩ | ⟨_, -, h⟩ <;> rw [h]
@[simp] theorem State.rxStep_params : (s.rxStep b).params = s.params := by
  rcases s.rxStep_cases b with ⟨-, h⟩ | ⟨_, -, h⟩ <;> rw [h]
@[simp] theorem State.rxStep_sent : (s.rxStep b).out.tx = s.out.tx := by
  rcases s.rxStep_cases b with ⟨-, h⟩ | ⟨_, -, h⟩ <;> rw [h]
@[simp] theorem State.rxStep_reqs : (s.rxStep b).out.reqs = s.out.reqs := by
  rcases s.rxStep_cases b with ⟨-, h⟩ | ⟨_, -, h⟩ <;> rw [h]

/-- A step in SCAN waits for a byte, or takes the oldest one offered (R280). -/
theorem State.scanStep_cases :
    (s.env.rx = [] ∧ s.scanStep = s) ∨
    (∃ b rest, s.env.rx = b :: rest ∧ s.scanStep = State.rxStep { s with env := { s.env with rx := rest } } b) := by
  unfold State.scanStep
  cases h : s.env.rx with
  | nil => exact .inl ⟨rfl, rfl⟩
  | cons b rest => exact .inr ⟨b, rest, rfl, rfl⟩

@[simp] theorem State.scanStep_sess : s.scanStep.sess = s.sess := by
  rcases s.scanStep_cases with ⟨-, h⟩ | ⟨b, rest, -, h⟩ <;> rw [h]
  rw [State.rxStep_sess]
@[simp] theorem State.scanStep_reqs : s.scanStep.out.reqs = s.out.reqs := by
  rcases s.scanStep_cases with ⟨-, h⟩ | ⟨b, rest, -, h⟩ <;> rw [h]
  rw [State.rxStep_reqs]

end

/-! ### The payload of a decoded candidate -/

/-- R140: an accepted frame's payload has the length its header gives. -/
theorem decodeFrame_payload_length {f : List Byte} {fr : Frame} (h : decodeFrame f = .frame fr) :
    fr.payload.length = (le16 f 10).toNat := by
  unfold decodeFrame at h
  split_ifs at h with hmin hopen hclose hlength hcrc hversion
  cases h
  have hsize : 12 + (le16 f 10).toNat + 4 = f.length := not_not.1 hlength
  show (slice f 12 (12 + (le16 f 10).toNat)).length = _
  rw [slice_length]
  omega

theorem decode_payload_length {f : List Byte} {i : Instr} (h : decode f = .instr i) :
    i.payload.length = (le16 f 10).toNat := by
  unfold decode at h
  split at h
  · cases h
  · rename_i fr hfr
    split at h
    · cases h
      rw [Opcode.instr_payload]
      exact decodeFrame_payload_length hfr
    · cases h

end Sys2Proof.Machine
end

section
/-! PROOFS. What a command rule changes and leaves unchanged in one step, whichever command it is (spec/43_commands.md,
45_driver.md R281, R282): the ports, the requests, `S.lastError` and `S.receivedBytes`. -/

namespace Sys2Proof.Machine

/-! ### The internal abort, field by field (43_commands.md R240) -/

section
variable (s : State) (k : AfterAbort)

@[simp] theorem State.endAbort_sess : (s.endAbort k).sess = { s.sess.clear with state := .idle } := by
  rw [State.endAbort_eq]
@[simp] theorem State.endAbort_fbuf : (s.endAbort k).fbuf = s.fbuf := by rw [State.endAbort_eq]
@[simp] theorem State.endAbort_image : (s.endAbort k).image = [] := by rw [State.endAbort_eq]
@[simp] theorem State.endAbort_params : (s.endAbort k).params = s.params := by rw [State.endAbort_eq]
@[simp] theorem State.endAbort_env : (s.endAbort k).env = s.env := by rw [State.endAbort_eq]
@[simp] theorem State.endAbort_later : (s.endAbort k).later = s.later := by rw [State.endAbort_eq]
@[simp] theorem State.endAbort_out : (s.endAbort k).out = s.out := by rw [State.endAbort_eq]
@[simp] theorem State.endAbort_phase : (s.endAbort k).eng.phase = .tx := by rw [State.endAbort_eq]
@[simp] theorem State.endAbort_txq : (s.endAbort k).eng.txq = s.eng.txq ++ k.replies := by rw [State.endAbort_eq]
@[simp] theorem State.endAbort_halt : (s.endAbort k).eng.halt = s.eng.halt := by rw [State.endAbort_eq]
@[simp] theorem State.endAbort_cont : (s.endAbort k).eng.cont = none := by rw [State.endAbort_eq]

/-- The internal abort waits for the release of an open handle, or ends at once. -/
theorem State.abortInternal_cases :
    (s.sess.handleOpen = true ∧ s.abortInternal k = s.request (.abortUpdate s.sess.handle) (.abortDone k)) ∨
    (s.sess.handleOpen = false ∧ s.abortInternal k = s.endAbort k) := by
  cases h : s.sess.handleOpen with
  | true => exact .inl ⟨rfl, s.abortInternal_of_open k h⟩
  | false => exact .inr ⟨rfl, s.abortInternal_of_closed k h⟩

end

/-! ### The last operation of a rule -/

/-- What a command rule does in one step, but for the two answers `startOk` and `acceptData` take: the last operation of the
rule, with the session registers it has set before. -/
inductive RuleResult (s : State) : State → Prop
  | nack (q : U16) (c : ErrorCode) : RuleResult s (s.nackReturn q c)
  | wrongState (q : U16) : RuleResult s (s.wrongState q).finish
  | request (r : BkReq) (k : Cont) : RuleResult s (s.request r k)
  | write (q : U16) (p : List Byte) :
      RuleResult s (State.issueWrite { s with sess := { s.sess with imageHeaderChecked := true } } q p)
  | verify (r : BkReq) (k : Cont) :
      RuleResult s (State.request { s with sess := { s.sess with state := .verifying, handleOpen := false } } r k)
  | abort (k : AfterAbort) : RuleResult s (s.abortInternal k)
  | fail (q : U16) (c : ErrorCode) : RuleResult s ((s.nack q c).abortInternal .finished)
  | released (k : AfterAbort) : RuleResult s (State.endAbort { s with sess := { s.sess with handleOpen := false } } k)
  | status (q : U16) : RuleResult s (s.statusReply q)
  | rollback (q : U16) : RuleResult s (s.acceptRollback q)
  | complete (q : U16) : RuleResult s (s.completeTransfer q)

theorem exec_ruleResult {i : Instr} {s u : State} (h : exec i s = .next u) : RuleResult s u := by
  rcases exec_next h with ⟨c, -, rfl⟩ | ⟨-, -, rfl⟩ | ⟨-, -, rfl⟩ | ⟨-, -, -, -, rfl⟩ | ⟨-, -, c, -, rfl⟩ |
    ⟨-, -, -, rfl⟩ | ⟨-, rfl⟩ | ⟨-, rfl⟩ | ⟨-, -, rfl⟩
  · exact .nack _ c
  · exact .wrongState _
  · exact .request _ _
  · exact .write _ _
  · exact .fail _ c
  · exact .verify _ _
  · exact .abort _
  · exact .status _
  · exact .rollback _

/-- The first step of EXEC drops the frame or takes a rule's first step. -/
theorem startFrame_ruleResult {s u : State} (h : s.startFrame = .next u) : (∃ c, u = s.drop c) ∨ RuleResult s u := by
  rcases startFrame_next h with ⟨e, -, rfl⟩ | ⟨fr, -, rfl⟩ | ⟨i, -, hi⟩
  · exact .inl ⟨e.reason, rfl⟩
  · exact .inr (.nack fr.sequence .unknown)
  · exact .inr (exec_ruleResult hi)

theorem resume_ruleResult {k : Cont} {r : BkResp} {s u : State} (h : resume k r s = .next u) :
    (∃ q size fcrc hd, k = .startBegin q size fcrc ∧ r = .okHandle hd ∧ u = s.startOk q size fcrc hd) ∨
    (∃ q p, k = .dataWrite q p ∧ r = .ok ∧ u = s.acceptData q p) ∨ RuleResult s u := by
  rcases resume_next h with hstart | ⟨q, _, _, -, -, rfl⟩ | hdata | ⟨q, _, -, -, rfl⟩ | ⟨q, -, -, rfl⟩ | ⟨q, -, -, rfl⟩ |
    ⟨q, -, -, rfl⟩ | ⟨q, -, -, rfl⟩ | ⟨a, -, -, rfl⟩
  · exact .inl hstart
  · exact .inr (.inr (.nack q _))
  · exact .inr (.inl hdata)
  · exact .inr (.inr (.fail q _))
  · exact .inr (.inr (.request _ _))
  · exact .inr (.inr (.nack q _))
  · exact .inr (.inr (.complete q))
  · exact .inr (.inr (.nack q _))
  · exact .inr (.inr (.released a))

/-! ### The ports -/

/-- The ports, the schedule and the parameters are as they were, and no reply byte has been sent. -/
structure State.SamePorts (s u : State) : Prop where
  env : u.env = s.env
  later : u.later = s.later
  params : u.params = s.params
  sent : u.out.tx = s.out.tx

theorem State.samePorts_abortInternal (s : State) (k : AfterAbort) : s.SamePorts (s.abortInternal k) := by
  rcases s.abortInternal_cases k with ⟨-, h⟩ | ⟨-, h⟩ <;> rw [h] <;> constructor <;> simp

/-- A rule touches no port but `bk_req`. -/
theorem RuleResult.samePorts {s u : State} (h : RuleResult s u) : s.SamePorts u := by
  cases h with
  | nack | request | write | verify | status | rollback | complete => exact ⟨rfl, rfl, rfl, rfl⟩
  | wrongState q => rw [State.wrongState_eq]; exact ⟨rfl, rfl, rfl, rfl⟩
  | abort k => exact s.samePorts_abortInternal k
  | fail q c =>
    obtain ⟨henv, hlater, hparams, hsent⟩ := (s.nack q c).samePorts_abortInternal .finished
    exact ⟨henv, hlater, hparams, hsent⟩
  | released k => constructor <;> simp

theorem startFrame_samePorts {s u : State} (h : s.startFrame = .next u) : s.SamePorts u := by
  rcases startFrame_ruleResult h with ⟨c, rfl⟩ | h
  · exact ⟨rfl, rfl, rfl, rfl⟩
  · exact h.samePorts

theorem resume_samePorts {k : Cont} {r : BkResp} {s u : State} (h : resume k r s = .next u) : s.SamePorts u := by
  rcases resume_ruleResult h with ⟨q, size, fcrc, hd, -, -, rfl⟩ | ⟨q, p, -, -, rfl⟩ | h
  · exact ⟨rfl, rfl, rfl, rfl⟩
  · rw [State.acceptData_eq]; exact ⟨rfl, rfl, rfl, rfl⟩
  · exact h.samePorts

/-! ### The requests (20_memory.md R66, 45_driver.md R286) -/

/-- No request has been issued, or one, which is then outstanding. -/
def State.IssuesAtMostOne (s u : State) : Prop :=
  u.out.reqs = s.out.reqs ∨ ∃ q, u.out.reqs = s.out.reqs ++ [q] ∧ u.bkReq = some q

theorem State.bkReq_of_exec {s : State} {q : BkReq} {k : Cont} (hphase : s.eng.phase = .exec)
    (hcont : s.eng.cont = some ⟨q, k⟩) : s.bkReq = some q := by
  simp [State.bkReq, hphase, hcont]

theorem State.issuesAtMostOne_request (s : State) (r : BkReq) (k : Cont) : s.IssuesAtMostOne (s.request r k) :=
  .inr ⟨r, rfl, State.bkReq_of_exec rfl rfl⟩

theorem State.issuesAtMostOne_abortInternal (s : State) (k : AfterAbort) : s.IssuesAtMostOne (s.abortInternal k) := by
  rcases s.abortInternal_cases k with ⟨-, h⟩ | ⟨-, h⟩ <;> rw [h]
  · exact s.issuesAtMostOne_request _ _
  · exact .inl (by rw [State.endAbort_out])

theorem RuleResult.issuesAtMostOne {s u : State} (h : RuleResult s u) : s.IssuesAtMostOne u := by
  cases h with
  | nack | status | rollback | complete => exact .inl rfl
  | wrongState q => rw [State.wrongState_eq]; exact .inl rfl
  | request r k => exact s.issuesAtMostOne_request r k
  | write | verify => exact .inr ⟨_, rfl, State.bkReq_of_exec rfl rfl⟩
  | abort k => exact s.issuesAtMostOne_abortInternal k
  | fail q c => exact (s.nack q c).issuesAtMostOne_abortInternal .finished
  | released k => exact .inl (by rw [State.endAbort_out])

/-! ### `S.lastError` (10_state.md R24) -/

/-- One NACK is queued; it carries the new `S.lastError` and the counters as they were (44_replies.md R255). -/
def State.QueuesNack (s u : State) : Prop :=
  ∃ q, u.eng.txq = s.eng.txq ++ encodeFrame 0x82#8 q s.sess.receivedBytes
    (ackPayload u.sess.lastError s.sess.expectedSequence s.sess.receivedBytes)

theorem State.lastError_abortInternal (s : State) (k : AfterAbort) :
    (s.abortInternal k).sess.lastError = s.sess.lastError := by
  rcases s.abortInternal_cases k with ⟨-, h⟩ | ⟨-, h⟩ <;> rw [h]
  · rfl
  · rw [State.endAbort_sess]; rfl

/-- The abort of a failed command queues nothing of its own: the NACK is already there. -/
theorem State.txq_abortInternal_finished (s : State) : (s.abortInternal .finished).eng.txq = s.eng.txq := by
  rcases s.abortInternal_cases .finished with ⟨-, h⟩ | ⟨-, h⟩ <;> rw [h]
  · rfl
  · rw [State.endAbort_txq]; exact List.append_nil _

theorem RuleResult.lastError {s u : State} (h : RuleResult s u) :
    u.sess.lastError = s.sess.lastError ∨ s.QueuesNack u := by
  cases h with
  | request | write | verify | status | rollback | complete => exact .inl rfl
  | nack q c => exact .inr ⟨q, rfl⟩
  | wrongState q => rw [State.wrongState_eq]; exact .inr ⟨q, rfl⟩
  | abort k => exact .inl (s.lastError_abortInternal k)
  | fail q c =>
    refine .inr ⟨q, ?_⟩
    rw [State.txq_abortInternal_finished, State.lastError_abortInternal]
    rfl
  | released k => rw [State.endAbort_sess]; exact .inl rfl

/-! ### `S.receivedBytes` (10_state.md R26) -/

theorem State.receivedBytes_abortInternal (s : State) (k : AfterAbort) :
    (s.abortInternal k).sess.receivedBytes = s.sess.receivedBytes ∨ (s.abortInternal k).sess.receivedBytes = 0 := by
  rcases s.abortInternal_cases k with ⟨-, h⟩ | ⟨-, h⟩ <;> rw [h]
  · exact .inl rfl
  · rw [State.endAbort_sess]; exact .inr rfl

theorem RuleResult.receivedBytes {s u : State} (h : RuleResult s u) :
    u.sess.receivedBytes = s.sess.receivedBytes ∨ u.sess.receivedBytes = 0 := by
  cases h with
  | nack | request | write | verify | status | rollback | complete => exact .inl rfl
  | wrongState q => rw [State.wrongState_eq]; exact .inl rfl
  | abort k => exact s.receivedBytes_abortInternal k
  | fail q c => exact (s.nack q c).receivedBytes_abortInternal .finished
  | released k => rw [State.endAbort_sess]; exact .inr rfl

end Sys2Proof.Machine
end

section
/-! PROOFS. The invariant of Safety.lean is kept by every operation that changes the session, the phase or the image record,
hence by every command, every answer and every transition (spec/10_state.md R34, R37, 42_framer.md R166, 45_driver.md
R286, R287). -/

namespace Sys2Proof.Machine

/-! ### The session registers, the halt request and the image record -/

/-- The part of the invariant that does not look at the phase. -/
structure Session.Consistent (r : Session) (h : HaltReq) (m : Memory) : Prop where
  registers : r.Inv
  restart : h = .restart ↔ r.state = .completed
  rollback : h = .rollback ↔ r.state = .rollback
  canonical : m.wf
  unwritten : r.state = .idle ∨ r.state = .error → m = []

theorem State.inv_iff (s : State) :
    s.Inv ↔ s.sess.Consistent s.eng.halt s.image ∧ s.PhaseInv ∧ s.eng.txq.length ≤ 58 := by
  constructor
  · rintro ⟨hsess, hphase, ⟨hrestart, hrollback⟩, hlen, hwf, hempty⟩
    exact ⟨⟨hsess, hrestart, hrollback, hwf, hempty⟩, hphase, hlen⟩
  · rintro ⟨⟨hsess, hrestart, hrollback, hwf, hempty⟩, hphase, hlen⟩
    exact ⟨hsess, hphase, ⟨hrestart, hrollback⟩, hlen, hwf, hempty⟩

namespace Session.Consistent

variable {r : Session} {h : HaltReq} {m : Memory}

theorem reset : Session.reset.Consistent .noHalt [] where
  registers := by decide
  restart := by decide
  rollback := by decide
  canonical := Memory.wf_nil
  unwritten _ := rfl

theorem handleOpen_of_receiving (hr : r.Consistent h m) (hstate : r.state = .receiving) : r.handleOpen = true :=
  hr.registers.1 hstate

/-- A handle is open only in RECEIVING and, after an accepted rollback, in ROLLBACK (R34 (b)). -/
theorem handleOpen_eq_false (hr : r.Consistent .noHalt m) (hstate : r.state ≠ .receiving) : r.handleOpen = false := by
  obtain ⟨-, hopen, -⟩ := hr.registers
  have hrollback : r.state ≠ .rollback := fun h => nomatch hr.rollback.2 h
  cases hh : r.handleOpen with
  | false => rfl
  | true => exact ((hopen hh).elim hstate hrollback).elim

theorem setLastError (hr : r.Consistent h m) (c : ErrorCode) : { r with lastError := c }.Consistent h m :=
  ⟨hr.registers, hr.restart, hr.rollback, hr.canonical, hr.unwritten⟩

/-- `wrongState` enters ERROR only from IDLE or ERROR, where the registers are cleared (R34 (c), R236). -/
theorem wrongState (hr : r.Consistent .noHalt m) (hstate : r.state ≠ .receiving) :
    { r with
      lastError := .invalidState
      state := if r.state = .idle ∨ r.state = .error then SessionState.error else r.state : Session }.Consistent .noHalt m := by
  by_cases hidle : r.state = .idle ∨ r.state = .error
  · obtain ⟨-, -, -, hcleared, -⟩ := hr.registers
    have hclosed : r.handleOpen = false := hr.handleOpen_eq_false hstate
    rw [if_pos hidle]
    exact ⟨⟨by simp, by simp [hclosed], by simp, fun _ => hcleared hidle, by simp⟩, by simp, by simp, hr.canonical,
      fun _ => hr.unwritten hidle⟩
  · rw [if_neg hidle]
    exact hr.setLastError .invalidState

theorem checked (hr : r.Consistent h m) (hstate : r.state = .receiving) :
    { r with imageHeaderChecked := true }.Consistent h m := by
  obtain ⟨hopened, hopen, hnever, -, -⟩ := hr.registers
  exact ⟨⟨hopened, hopen, hnever, by simp [hstate], fun _ _ => rfl⟩, hr.restart, hr.rollback, hr.canonical, hr.unwritten⟩

theorem verifying (hr : r.Consistent .noHalt m) :
    { r with state := .verifying, handleOpen := false }.Consistent .noHalt m :=
  ⟨by simp [Session.Inv], by simp, by simp, hr.canonical, by simp⟩

/-- The session clear, whatever was there before (R240, R241). -/
theorem cleared (hclosed : r.handleOpen = false) : { r.clear with state := .idle }.Consistent .noHalt [] :=
  ⟨by simp [Session.Inv, Session.isCleared, hclosed], by simp, by simp, Memory.wf_nil, fun _ => rfl⟩

/-- A transfer begun (R195). -/
theorem started (size fcrc : U32) (hd : Handle) :
    { r.clear with
      handle := hd, handleOpen := true, totalBytes := size, firmwareCRC32 := fcrc, lastError := .noError,
      state := .receiving }.Consistent .noHalt [] :=
  ⟨by simp [Session.Inv], by simp, by simp, Memory.wf_nil, fun _ => rfl⟩

/-- An accepted payload (R203): the header has been checked before its write was issued. -/
theorem accepted (hr : r.Consistent h m) (hstate : r.state = .receiving) (hchecked : r.imageHeaderChecked = true)
    (crc n : U32) (q : U16) (d : Fin 11) (off : U32) (p : List Byte) :
    { r with imageCRC32 := crc, receivedBytes := n, expectedSequence := q, progressDecile := d }.Consistent h
      (m.writePayload off p) := by
  obtain ⟨hopened, hopen, hnever, -, -⟩ := hr.registers
  exact ⟨⟨hopened, hopen, hnever, by simp [hstate], fun _ _ => hchecked⟩, hr.restart, hr.rollback,
    Memory.wf_writePayload _ _ _ hr.canonical, by simp [hstate]⟩

theorem completed (hr : r.Consistent .noHalt m) (hstate : r.state = .verifying) :
    { r with state := .completed }.Consistent .restart m := by
  have hclosed : r.handleOpen = false := hr.handleOpen_eq_false (by simp [hstate])
  exact ⟨by simp [Session.Inv, hclosed], by simp, by simp, hr.canonical, by simp⟩

theorem rolledBack (hr : r.Consistent .noHalt m) : { r with state := .rollback }.Consistent .rollback m :=
  ⟨by simp [Session.Inv], by simp, by simp, hr.canonical, by simp⟩

end Session.Consistent

/-! ### What the invariant says phase by phase -/

section
variable {s : State}

theorem State.phaseInv_of_scan (h : s.eng.phase = .scan) :
    s.PhaseInv ↔ s.eng.txq = [] ∧ s.eng.halt = .noHalt ∧ s.eng.cont = none ∧ FramerRest s.fbuf := by
  unfold State.PhaseInv; rw [h]

theorem State.phaseInv_of_tx (h : s.eng.phase = .tx) :
    s.PhaseInv ↔ s.eng.txq ≠ [] ∧ s.eng.cont = none ∧ s.fbuf = [] := by
  unfold State.PhaseInv; rw [h]

theorem State.phaseInv_of_halt (h : s.eng.phase = .halt) :
    s.PhaseInv ↔ s.eng.txq = [] ∧ s.eng.halt ≠ .noHalt ∧ s.eng.cont = none ∧ s.fbuf = [] := by
  unfold State.PhaseInv; rw [h]

theorem State.phaseInv_of_exec (h : s.eng.phase = .exec) (hcont : s.eng.cont = none) :
    s.PhaseInv ↔ s.eng.halt = .noHalt ∧ s.fbuf = [] ∧ Candidate s.eng.cur ∧ s.eng.txq = [] := by
  unfold State.PhaseInv; rw [h, hcont]

theorem State.phaseInv_of_waiting {pd : Pending} (h : s.eng.phase = .exec) (hcont : s.eng.cont = some pd) :
    s.PhaseInv ↔ s.eng.halt = .noHalt ∧ s.fbuf = [] ∧ Candidate s.eng.cur ∧ pd.Inv s := by
  unfold State.PhaseInv; rw [h, hcont]

variable {r : BkReq}

theorem pendingInv_startBegin {q : U16} {size fcrc : U32} :
    Pending.Inv ⟨r, .startBegin q size fcrc⟩ s ↔
      r = .beginUpdate size ∧ s.eng.txq = [] ∧ (s.sess.state = .idle ∨ s.sess.state = .error) := Iff.rfl

theorem pendingInv_dataWrite {q : U16} {p : List Byte} :
    Pending.Inv ⟨r, .dataWrite q p⟩ s ↔
      r = .write s.sess.handle s.sess.receivedBytes p ∧ s.eng.txq = [] ∧ s.sess.state = .receiving ∧
        s.sess.imageHeaderChecked = true ∧ p.length ≤ 1024 := Iff.rfl

theorem pendingInv_endEnd {q : U16} :
    Pending.Inv ⟨r, .endEnd q⟩ s ↔
      r = .endUpdate s.sess.handle ∧ s.eng.txq = [] ∧ s.sess.state = .verifying := Iff.rfl

theorem pendingInv_endSetBoot {q : U16} :
    Pending.Inv ⟨r, .endSetBoot q⟩ s ↔
      r = .setBoot s.sess.handle ∧ s.eng.txq = [] ∧ s.sess.state = .verifying := Iff.rfl

theorem pendingInv_abortDone_finished :
    Pending.Inv ⟨r, .abortDone .finished⟩ s ↔
      r = .abortUpdate s.sess.handle ∧ s.eng.txq.length = 23 ∧ s.sess.handleOpen = true := Iff.rfl

theorem pendingInv_abortDone_ack {q : U16} :
    Pending.Inv ⟨r, .abortDone (.ack q)⟩ s ↔
      r = .abortUpdate s.sess.handle ∧ s.eng.txq = [] ∧ s.sess.handleOpen = true := Iff.rfl

/-- The only request that writes is DATA's. -/
theorem Pending.cont_of_write {k : Cont} {hd : Handle} {off : U32} {d : List Byte}
    (h : Pending.Inv ⟨.write hd off d, k⟩ s) : ∃ q, k = .dataWrite q d := by
  match k with
  | .startBegin _ _ _ => cases (pendingInv_startBegin.1 h).1
  | .dataWrite q _ => cases (pendingInv_dataWrite.1 h).1; exact ⟨q, rfl⟩
  | .endEnd _ => cases (pendingInv_endEnd.1 h).1
  | .endSetBoot _ => cases (pendingInv_endSetBoot.1 h).1
  | .abortDone .finished => cases (pendingInv_abortDone_finished.1 h).1
  | .abortDone (.ack _) => cases (pendingInv_abortDone_ack.1 h).1

end

/-! ### The invariant while a rule runs -/

/-- What holds in EXEC of all but the queue and the outstanding request. -/
structure State.Executing (s : State) : Prop where
  consistent : s.sess.Consistent .noHalt s.image
  halt : s.eng.halt = .noHalt
  fbuf : s.fbuf = []
  candidate : Candidate s.eng.cur

theorem State.executing_of_inv {s : State} (hinv : s.Inv) (hphase : s.eng.phase = .exec) : s.Executing := by
  obtain ⟨hreg, hph, -⟩ := s.inv_iff.1 hinv
  cases hcont : s.eng.cont with
  | none =>
    obtain ⟨hhalt, hbuf, hcur, -⟩ := (State.phaseInv_of_exec hphase hcont).1 hph
    exact ⟨hhalt ▸ hreg, hhalt, hbuf, hcur⟩
  | some pd =>
    obtain ⟨hhalt, hbuf, hcur, -⟩ := (State.phaseInv_of_waiting hphase hcont).1 hph
    exact ⟨hhalt ▸ hreg, hhalt, hbuf, hcur⟩

/-- A rule's end: replies are queued and the phase is TX. -/
theorem State.inv_of_tx {u : State} (hphase : u.eng.phase = .tx) (hcont : u.eng.cont = none) (hbuf : u.fbuf = [])
    (hreg : u.sess.Consistent u.eng.halt u.image) (hne : u.eng.txq ≠ []) (hlen : u.eng.txq.length ≤ 58) : u.Inv :=
  u.inv_iff.2 ⟨hreg, (State.phaseInv_of_tx hphase).2 ⟨hne, hcont, hbuf⟩, hlen⟩

/-- A request issued: the rule waits for its answer. -/
theorem State.Executing.inv_request {s : State} (hs : s.Executing) {q : BkReq} {k : Cont}
    (hpending : Pending.Inv ⟨q, k⟩ s) (hlen : s.eng.txq.length ≤ 58) : (s.request q k).Inv :=
  (s.request q k).inv_iff.2
    ⟨hs.halt ▸ hs.consistent, (State.phaseInv_of_waiting rfl rfl).2 ⟨hs.halt, hs.fbuf, hs.candidate, hpending⟩, hlen⟩

/-- The internal abort's end, with the NACK of a failed command queued before or ABORT's own ACK queued now. -/
theorem State.inv_endAbort {s : State} {k : AfterAbort} (hhalt : s.eng.halt = .noHalt) (hbuf : s.fbuf = [])
    (hclosed : s.sess.handleOpen = false) (hlen : (s.eng.txq ++ k.replies).length = 23) : (s.endAbort k).Inv := by
  refine State.inv_of_tx (by simp) (by simp) (by simpa using hbuf) ?_ ?_ ?_
  · simpa [hhalt] using Session.Consistent.cleared hclosed
  · rw [State.endAbort_txq]
    exact List.ne_nil_of_length_pos (by omega)
  · rw [State.endAbort_txq]; omega

@[simp] theorem ackPayload_length (c : ErrorCode) (q : U16) (n : U32) : (ackPayload c q n).length = 7 := rfl

@[simp] theorem progressPayload_length (n total : U32) (pct : Nat) : (progressPayload n total pct).length = 9 := rfl

@[simp] theorem statusPayload_length (st : SessionState) (c : ErrorCode) (n total : U32) (v : Version) :
    (statusPayload st c n total v).length = 42 := by
  simp [statusPayload]

theorem State.progressReply_length_le (s : State) (q : U16) : (s.progressReply q).length ≤ 25 := by
  unfold State.progressReply
  split_ifs <;> simp

namespace State.Executing

variable {s : State}

theorem takeAnswer (hs : s.Executing) : s.takeAnswer.Executing := ⟨hs.consistent, hs.halt, hs.fbuf, hs.candidate⟩

theorem nack (hs : s.Executing) (q : U16) (c : ErrorCode) : (s.nack q c).Executing :=
  ⟨hs.consistent.setLastError c, hs.halt, hs.fbuf, hs.candidate⟩

theorem inv_nackReturn (hs : s.Executing) (htxq : s.eng.txq = []) (q : U16) (c : ErrorCode) : (s.nackReturn q c).Inv :=
  State.inv_of_tx rfl rfl hs.fbuf (hs.halt ▸ hs.consistent.setLastError c) (by simp) (by simp [htxq])

theorem inv_fail (hs : s.Executing) (htxq : s.eng.txq = []) (hopen : s.sess.handleOpen = true) (q : U16) (c : ErrorCode) :
    ((s.nack q c).abortInternal .finished).Inv := by
  rw [State.abortInternal_of_open (s.nack q c) .finished hopen]
  exact (hs.nack q c).inv_request (pendingInv_abortDone_finished.2 ⟨rfl, by simp [htxq], hopen⟩) (by simp [htxq])

/-- ABORT (R220), with a handle open and with none. -/
theorem inv_abort (hs : s.Executing) (htxq : s.eng.txq = []) (q : U16) : (s.abortInternal (.ack q)).Inv := by
  rcases s.abortInternal_cases (.ack q) with ⟨hopen, h⟩ | ⟨hclosed, h⟩ <;> rw [h]
  · exact hs.inv_request (pendingInv_abortDone_ack.2 ⟨rfl, htxq, hopen⟩) (by simp [htxq])
  · exact State.inv_endAbort hs.halt hs.fbuf hclosed (by simp [htxq, AfterAbort.replies])

/-- An accepted DATA frame queues at most ACK and PROGRESS. -/
theorem inv_acceptData (hs : s.Executing) (htxq : s.eng.txq = []) (hstate : s.sess.state = .receiving)
    (hchecked : s.sess.imageHeaderChecked = true) (q : U16) (p : List Byte) : (s.acceptData q p).Inv := by
  rw [State.acceptData_eq]
  refine State.inv_of_tx rfl rfl hs.fbuf (hs.halt ▸ hs.consistent.accepted hstate hchecked ..) (by simp) ?_
  simp only [htxq, List.nil_append, List.length_append, encodeFrame_length, ackPayload_length]
  exact Nat.le_trans (Nat.add_le_add_left (State.progressReply_length_le _ q) 23) (by decide)

end State.Executing

/-! ### The commands and the answers -/

/-- Every command, up to its first request or its end. -/
theorem exec_keeps_inv {i : Instr} {s u : State} (hs : s.Executing) (htxq : s.eng.txq = [])
    (hpayload : i.payload.length ≤ 1024) (h : exec i s = .next u) : u.Inv := by
  rcases exec_next h with ⟨c, -, rfl⟩ | ⟨-, hstate, rfl⟩ | ⟨-, hstate, rfl⟩ | ⟨-, hstate, -, -, rfl⟩ |
    ⟨-, hstate, c, -, rfl⟩ | ⟨-, hstate, -, rfl⟩ | ⟨-, rfl⟩ | ⟨-, rfl⟩ | ⟨-, -, rfl⟩
  · exact hs.inv_nackReturn htxq _ c
  · rw [State.wrongState_eq]
    exact State.inv_of_tx rfl rfl hs.fbuf (hs.halt ▸ hs.consistent.wrongState hstate) (by simp) (by simp [htxq])
  · exact hs.inv_request (pendingInv_startBegin.2 ⟨rfl, htxq, hstate⟩) (by simp [htxq])
  · have hs' : State.Executing { s with sess := { s.sess with imageHeaderChecked := true } } :=
      ⟨hs.consistent.checked hstate, hs.halt, hs.fbuf, hs.candidate⟩
    exact hs'.inv_request (pendingInv_dataWrite.2 ⟨rfl, htxq, hstate, rfl, hpayload⟩) (by simp [htxq])
  · exact hs.inv_fail htxq (hs.consistent.handleOpen_of_receiving hstate) _ c
  · have hs' : State.Executing { s with sess := { s.sess with state := .verifying, handleOpen := false } } :=
      ⟨hs.consistent.verifying, hs.halt, hs.fbuf, hs.candidate⟩
    exact hs'.inv_request (pendingInv_endEnd.2 ⟨rfl, htxq, rfl⟩) (by simp [htxq])
  · exact hs.inv_abort htxq _
  · exact State.inv_of_tx rfl rfl hs.fbuf (hs.halt ▸ hs.consistent) (by simp [State.statusReply, State.replied])
      (by simp [State.statusReply, State.replied, htxq])
  · exact State.inv_of_tx rfl rfl hs.fbuf hs.consistent.rolledBack (by simp) (by simp [htxq])

/-- The first step of EXEC: a drop, or a rule on the frame the framer has extracted (R281). -/
theorem startFrame_keeps_inv {s u : State} (hs : s.Executing) (hcont : s.eng.cont = none) (htxq : s.eng.txq = [])
    (h : s.startFrame = .next u) : u.Inv := by
  rcases startFrame_next h with ⟨e, -, rfl⟩ | ⟨fr, -, rfl⟩ | ⟨i, hdecode, hi⟩
  · exact (s.drop e.reason).inv_iff.2
      ⟨hs.halt ▸ hs.consistent, (State.phaseInv_of_scan rfl).2 ⟨htxq, hs.halt, hcont, .inl hs.fbuf⟩, by simp [htxq]⟩
  · exact hs.inv_nackReturn htxq fr.sequence .unknown
  · obtain ⟨-, hmax, -⟩ := hs.candidate
    exact exec_keeps_inv hs htxq ((decode_payload_length hdecode).trans_le hmax) hi

/-- Every answer to an outstanding request (R282). -/
theorem resume_keeps_inv {pd : Pending} {r : BkResp} {s u : State} (hs : s.Executing) (hpending : pd.Inv s)
    (h : resume pd.cont r s = .next u) : u.Inv := by
  obtain ⟨req, k⟩ := pd
  rcases resume_next h with ⟨q, size, fcrc, hd, rfl, -, rfl⟩ | ⟨q, size, fcrc, rfl, -, rfl⟩ | ⟨q, p, rfl, -, rfl⟩ |
    ⟨q, p, rfl, -, rfl⟩ | ⟨q, rfl, -, rfl⟩ | ⟨q, rfl, -, rfl⟩ | ⟨q, rfl, -, rfl⟩ | ⟨q, rfl, -, rfl⟩ | ⟨a, rfl, -, rfl⟩
  · obtain ⟨-, htxq, -⟩ := pendingInv_startBegin.1 hpending
    exact State.inv_of_tx rfl rfl hs.fbuf (hs.halt ▸ Session.Consistent.started size fcrc hd) (by simp) (by simp [htxq])
  · obtain ⟨-, htxq, -⟩ := pendingInv_startBegin.1 hpending
    exact hs.inv_nackReturn htxq q _
  · obtain ⟨-, htxq, hstate, hchecked, -⟩ := pendingInv_dataWrite.1 hpending
    exact hs.inv_acceptData htxq hstate hchecked q p
  · obtain ⟨-, htxq, hstate, -⟩ := pendingInv_dataWrite.1 hpending
    exact hs.inv_fail htxq (hs.consistent.handleOpen_of_receiving hstate) q _
  · obtain ⟨-, htxq, hstate⟩ := pendingInv_endEnd.1 hpending
    exact hs.inv_request (pendingInv_endSetBoot.2 ⟨rfl, htxq, hstate⟩) (by simp [htxq])
  · obtain ⟨-, htxq, -⟩ := pendingInv_endEnd.1 hpending
    exact hs.inv_nackReturn htxq q _
  · obtain ⟨-, htxq, hstate⟩ := pendingInv_endSetBoot.1 hpending
    exact State.inv_of_tx rfl rfl hs.fbuf (hs.consistent.completed hstate) (by simp) (by simp [htxq])
  · obtain ⟨-, htxq, -⟩ := pendingInv_endSetBoot.1 hpending
    exact hs.inv_nackReturn htxq q _
  · cases a with
    | finished =>
      obtain ⟨-, hlen, -⟩ := pendingInv_abortDone_finished.1 hpending
      exact State.inv_endAbort hs.halt hs.fbuf rfl (by simpa [AfterAbort.replies] using hlen)
    | ack q =>
      obtain ⟨-, htxq, -⟩ := pendingInv_abortDone_ack.1 hpending
      exact State.inv_endAbort hs.halt hs.fbuf rfl (by simp [htxq, AfterAbort.replies])

/-! ### The driver -/

theorem State.inv_reset : State.reset.Inv :=
  State.reset.inv_iff.2 ⟨.reset, (State.phaseInv_of_scan rfl).2 ⟨rfl, rfl, rfl, .inl rfl⟩, by decide⟩

theorem State.inv_resetStep (s : State) : s.resetStep.Inv := State.inv_reset

/-- The environment's part touches nothing the invariant speaks of. -/
theorem State.Inv.advance {s : State} (h : s.Inv) : s.advance.Inv := by
  unfold State.advance
  split <;> exact h

/-- A received byte: the rest has one of its shapes, or the frame it completes begins to run (R160, R166). -/
theorem State.inv_rxStep {s : State} (hinv : s.Inv) (hphase : s.eng.phase = .scan) (b : Byte) : (s.rxStep b).Inv := by
  obtain ⟨hreg, hph, hlen⟩ := s.inv_iff.1 hinv
  obtain ⟨htxq, hhalt, hcont, hrest⟩ := (State.phaseInv_of_scan hphase).1 hph
  rcases scan_append_cases b hrest with ⟨hframe, hbuf⟩ | ⟨hframe, hbuf, hcand⟩
  · rcases s.rxStep_cases b with ⟨-, h⟩ | ⟨f, hf, -⟩
    · rw [h]
      refine (State.inv_iff _).2 ⟨hreg, (State.phaseInv_of_scan ?_).2 ⟨htxq, hhalt, hcont, hbuf⟩, hlen⟩
      exact hphase
    · exact absurd (hframe.symm.trans hf) (by simp)
  · rcases s.rxStep_cases b with ⟨hf, -⟩ | ⟨f, hf, h⟩
    · exact absurd (hframe.symm.trans hf) (by simp)
    · cases hframe.symm.trans hf
      rw [h]
      exact (State.inv_iff _).2 ⟨hreg, (State.phaseInv_of_exec rfl rfl).2 ⟨hhalt, hbuf, hcand, htxq⟩, hlen⟩

theorem State.inv_scanStep {s : State} (hinv : s.Inv) (hphase : s.eng.phase = .scan) : s.scanStep.Inv := by
  rcases s.scanStep_cases with ⟨-, h⟩ | ⟨b, rest, -, h⟩ <;> rw [h]
  · exact hinv
  · exact State.inv_rxStep (s := { s with env := { s.env with rx := rest } }) hinv hphase b

/-- A sent byte: the queue goes on, or the phase is the one the halt request asks for (R285). -/
theorem State.inv_sendByte {s : State} {b : Byte} {rest : List Byte} (hinv : s.Inv) (hphase : s.eng.phase = .tx)
    (htxq : s.eng.txq = b :: rest) : (s.sendByte b rest).Inv := by
  obtain ⟨hreg, hph, hlen⟩ := s.inv_iff.1 hinv
  obtain ⟨-, hcont, hbuf⟩ := (State.phaseInv_of_tx hphase).1 hph
  have hlen' : rest.length ≤ 58 := by simp [htxq] at hlen; omega
  refine (State.inv_iff _).2 ⟨hreg, ?_, hlen'⟩
  by_cases hrest : rest = []
  · cases hhalt : s.eng.halt with
    | noHalt =>
      exact (State.phaseInv_of_scan (by simp [State.sendByte, hrest, hhalt, phaseAfterTx])).2
        ⟨hrest, hhalt, hcont, .inl hbuf⟩
    | restart | rollback =>
      exact (State.phaseInv_of_halt (by simp [State.sendByte, hrest, hhalt, phaseAfterTx])).2
        ⟨hrest, by simp [State.sendByte, hhalt], hcont, hbuf⟩
  · exact (State.phaseInv_of_tx (by simp [State.sendByte, hrest])).2 ⟨hrest, hcont, hbuf⟩

/-- Every transition of R287 keeps the invariant. -/
theorem transition_keeps_inv {s u : State} (hinv : s.Inv) (h : s.transition = .next u) : u.Inv := by
  obtain ⟨-, hph, -⟩ := s.inv_iff.1 hinv
  rcases transition_next h with ⟨-, rfl⟩ | ⟨-, hphase, rfl⟩ | ⟨-, hphase, hcont, hstart⟩ | ⟨-, -, -, -, rfl⟩ |
    ⟨-, hphase, pd, r, rs, hcont, -, hresume⟩ | ⟨-, -, -, rfl⟩ | ⟨-, hphase, -, b, rest, htxq, rfl⟩ | ⟨-, -, rfl⟩
  · exact s.inv_resetStep
  · exact State.inv_scanStep hinv hphase
  · obtain ⟨-, -, -, htxq⟩ := (State.phaseInv_of_exec hphase hcont).1 hph
    exact startFrame_keeps_inv (State.executing_of_inv hinv hphase) hcont htxq hstart
  · exact hinv
  · obtain ⟨-, -, -, hpending⟩ := (State.phaseInv_of_waiting hphase hcont).1 hph
    exact resume_keeps_inv (State.executing_of_inv hinv hphase).takeAnswer hpending hresume
  · exact hinv
  · exact State.inv_sendByte hinv hphase htxq
  · exact hinv

theorem step_keeps_inv {s t : State} (hinv : s.Inv) (h : step s = .next t) : t.Inv := by
  obtain ⟨u, hu, rfl⟩ := step_next h
  exact (transition_keeps_inv hinv hu).advance

end Sys2Proof.Machine
end

section
/-! PROOFS. The statements about the state as a whole (spec/10_state.md): the invariant at reset and after every step, the
ports, `S.lastError`, and the writes and the running count. -/

namespace Sys2Proof.Machine

/-! ### The invariant -/

/-- Settles O52: SCAN with an empty buffer and queue, the registers cleared (R341). -/
theorem resetHasTheInvariant : Obligations.ResetHasTheInvariant := State.inv_reset

/-- Settles O51: each transition of R287 keeps the invariant, and the environment's part does not touch it. -/
theorem everyStepKeepsTheInvariant : Obligations.EveryStepKeepsTheInvariant := fun _ _ hinv h => step_keeps_inv hinv h

/-! ### `S.lastError` -/

/-- What a transition without reset does to `S.lastError`. -/
theorem transition_lastError {s u : State} (hrst : s.env.rst = false) (h : s.transition = .next u) :
    u.sess.lastError = s.sess.lastError ∨ s.QueuesNack u ∨
    ∃ r q size fcrc hd, s.eng.cont = some ⟨r, .startBegin q size fcrc⟩ ∧ s.env.bkResp.head? = some (.okHandle hd) ∧
      u.sess.lastError = .noError ∧ u.sess.state = .receiving := by
  rcases transition_next h with ⟨hrst', -⟩ | ⟨-, -, rfl⟩ | ⟨-, -, -, hstart⟩ | ⟨-, -, -, -, rfl⟩ |
    ⟨-, -, ⟨r, k⟩, a, as, hcont, hbk, hresume⟩ | ⟨-, -, -, rfl⟩ | ⟨-, -, -, b, rest, -, rfl⟩ | ⟨-, -, rfl⟩
  · simp [hrst] at hrst'
  · exact .inl (by rw [State.scanStep_sess])
  · rcases startFrame_ruleResult hstart with ⟨c, rfl⟩ | hrule
    · exact .inl rfl
    · exact hrule.lastError.imp_right .inl
  · exact .inl rfl
  · rcases resume_ruleResult hresume with ⟨q, size, fcrc, hd, rfl, rfl, rfl⟩ | ⟨q, p, -, -, rfl⟩ | hrule
    · exact .inr (.inr ⟨r, q, size, fcrc, hd, hcont, by rw [hbk]; rfl, rfl, rfl⟩)
    · exact .inl (by rw [State.acceptData_eq]; rfl)
    · exact hrule.lastError.imp_right .inl
  · exact .inl rfl
  · exact .inl rfl
  · exact .inl rfl

/-- Settles O55: a rule's last operation keeps it or is a NACK, and of the two answers that end a rule otherwise only the
one to BEGIN sets it. -/
theorem lastErrorChanges : Obligations.LastErrorChanges := by
  intro s t hrst h hne
  obtain ⟨u, hu, rfl⟩ := step_next h
  rw [State.advance_sess] at hne ⊢
  rw [State.advance_eng]
  rcases transition_lastError hrst hu with hsame | ⟨q, hnack⟩ | ⟨r, q, size, fcrc, hd, hcont, hbk, hnone, hstate⟩
  · exact absurd hsame hne
  · exact .inl ⟨q, hnack⟩
  · exact .inr ⟨hnone, hstate, r, q, size, fcrc, hd, hcont, hbk⟩

/-! ### The ports -/

theorem State.bkReq_eq_some (s : State) (q : BkReq) :
    s.bkReq = some q ↔ s.eng.phase = .exec ∧ ∃ k, s.eng.cont = some ⟨q, k⟩ := by
  unfold State.bkReq
  split_ifs with hphase
  · constructor
    · intro h
      obtain ⟨⟨_, k⟩, hcont, rfl⟩ := Option.map_eq_some_iff.1 h
      exact ⟨hphase, k, hcont⟩
    · rintro ⟨-, k, hcont⟩
      rw [hcont]; rfl
  · simp [hphase]

/-- What the statement allows a transition to do at the ports: one byte received in SCAN, one answer taken with a request
outstanding, one reply byte sent in TX. -/
def State.PortMoves (s u : State) : Prop :=
  (u.env.rx = s.env.rx ∨ (s.eng.phase = .scan ∧ ∃ b, s.env.rx = b :: u.env.rx)) ∧
  (u.env.bkResp = s.env.bkResp ∨ (s.bkReq ≠ none ∧ ∃ a, s.env.bkResp = a :: u.env.bkResp)) ∧
  (u.out.tx = s.out.tx ∨
    (s.eng.phase = .tx ∧ s.env.txReady = true ∧ ∃ b, s.eng.txq = b :: u.eng.txq ∧ u.out.tx = s.out.tx ++ [b])) ∧
  u.env = { s.env with rx := u.env.rx, bkResp := u.env.bkResp } ∧ u.later = s.later ∧ u.params = s.params

theorem State.SamePorts.portMoves {s u : State} (h : s.SamePorts u) : s.PortMoves u := by
  obtain ⟨henv, hlater, hparams, hsent⟩ := h
  exact ⟨.inl (by rw [henv]), .inl (by rw [henv]), .inl hsent, by rw [henv], hlater, hparams⟩

theorem State.portMoves_refl (s : State) : s.PortMoves s := State.SamePorts.portMoves ⟨rfl, rfl, rfl, rfl⟩

theorem State.portMoves_scanStep {s : State} (hphase : s.eng.phase = .scan) : s.PortMoves s.scanStep := by
  rcases s.scanStep_cases with ⟨-, h⟩ | ⟨b, rest, hrx, h⟩ <;> rw [h]
  · exact s.portMoves_refl
  · refine ⟨.inr ⟨hphase, b, ?_⟩, .inl ?_, .inl ?_, ?_, ?_, ?_⟩ <;> simp [hrx]

/-- A resumed rule has taken the oldest answer, and touches no other port. -/
theorem State.portMoves_resume {s u : State} {pd : Pending} {a : BkResp} {as : List BkResp}
    (hphase : s.eng.phase = .exec) (hcont : s.eng.cont = some pd) (hbk : s.env.bkResp = a :: as)
    (h : resume pd.cont a s.takeAnswer = .next u) : s.PortMoves u := by
  obtain ⟨henv, hlater, hparams, hsent⟩ := resume_samePorts h
  have hout : s.bkReq ≠ none := by
    rw [(s.bkReq_eq_some pd.req).2 ⟨hphase, pd.cont, hcont⟩]
    exact Option.some_ne_none _
  have htail : u.env.bkResp = as := by rw [henv, State.takeAnswer_env, hbk]; rfl
  exact ⟨.inl (by rw [henv]; rfl), .inr ⟨hout, a, by rw [htail, hbk]⟩, .inl hsent, by rw [henv]; rfl, hlater, hparams⟩

/-- Every transition without reset moves the ports only as its phase does. -/
theorem transition_portMoves {s u : State} (hrst : s.env.rst = false) (h : s.transition = .next u) : s.PortMoves u := by
  rcases transition_next h with ⟨hrst', -⟩ | ⟨-, hphase, rfl⟩ | ⟨-, -, -, hstart⟩ | ⟨-, -, -, -, rfl⟩ |
    ⟨-, hphase, pd, a, as, hcont, hbk, hresume⟩ | ⟨-, -, -, rfl⟩ | ⟨-, hphase, hready, b, rest, htxq, rfl⟩ | ⟨-, -, rfl⟩
  · simp [hrst] at hrst'
  · exact State.portMoves_scanStep hphase
  · exact (startFrame_samePorts hstart).portMoves
  · exact State.portMoves_refl _
  · exact State.portMoves_resume hphase hcont hbk hresume
  · exact State.portMoves_refl _
  · exact ⟨.inl rfl, .inl rfl, .inr ⟨hphase, hready, b, htxq, rfl⟩, rfl, rfl, rfl⟩
  · exact State.portMoves_refl _

/-- Settles O57: the levels by their definitions, the moves transition by transition. -/
theorem portsMoveOnlyInTheirPhases : Obligations.PortsMoveOnlyInTheirPhases := by
  refine ⟨fun s => ⟨?_, ?_, ?_, s.bkReq_eq_some, ?_, ?_⟩, fun _ _ => transition_portMoves⟩
  · exact decide_eq_true_iff
  · exact decide_eq_true_iff
  · intro b rest htxq
    rw [State.txData, htxq]
    rfl
  · exact decide_eq_true_iff
  · exact decide_eq_true_iff

/-! ### The writes and the running count -/

theorem startFrame_issuesAtMostOne {s u : State} (h : s.startFrame = .next u) : s.IssuesAtMostOne u := by
  rcases startFrame_ruleResult h with ⟨c, rfl⟩ | hrule
  · exact .inl rfl
  · exact hrule.issuesAtMostOne

theorem resume_issuesAtMostOne {k : Cont} {a : BkResp} {s u : State} (h : resume k a s = .next u) :
    s.IssuesAtMostOne u := by
  rcases resume_ruleResult h with ⟨q, size, fcrc, hd, -, -, rfl⟩ | ⟨q, p, -, -, rfl⟩ | hrule
  · exact .inl rfl
  · exact .inl (by rw [State.acceptData_eq])
  · exact hrule.issuesAtMostOne

theorem transition_issuesAtMostOne {s u : State} (h : s.transition = .next u) : s.IssuesAtMostOne u := by
  rcases transition_next h with ⟨-, rfl⟩ | ⟨-, -, rfl⟩ | ⟨-, -, -, hstart⟩ | ⟨-, -, -, -, rfl⟩ |
    ⟨-, -, pd, a, as, -, -, hresume⟩ | ⟨-, -, -, rfl⟩ | ⟨-, -, -, b, rest, -, rfl⟩ | ⟨-, -, rfl⟩
  · exact .inl rfl
  · exact .inl s.scanStep_reqs
  · exact startFrame_issuesAtMostOne hstart
  · exact .inl rfl
  · have hone : s.takeAnswer.IssuesAtMostOne u := resume_issuesAtMostOne hresume
    exact hone
  · exact .inl rfl
  · exact .inl rfl
  · exact .inl rfl

/-- A request that a step adds to the record is the outstanding one after it. -/
theorem step_issued_outstanding {s t : State} {q : BkReq} (h : step s = .next t)
    (hissued : t.out.reqs = s.out.reqs ++ [q]) : t.bkReq = some q := by
  obtain ⟨u, hu, rfl⟩ := step_next h
  rw [State.advance_out] at hissued
  have hbk : u.advance.bkReq = u.bkReq := by simp [State.bkReq]
  rcases transition_issuesAtMostOne hu with hnone | ⟨q', hone, hout⟩
  · exact absurd (hnone.symm.trans hissued) (by simp)
  · have hq : q' = q := by simpa using hone.symm.trans hissued
    rw [hbk, hout, hq]

/-- What the invariant says of an outstanding write: it is DATA's, at the running offset of the open session. -/
theorem State.Inv.outstanding_write {s : State} {hd : Handle} {off : U32} {d : List Byte} (hinv : s.Inv)
    (hout : s.bkReq = some (.write hd off d)) :
    off = s.sess.receivedBytes ∧ hd = s.sess.handle ∧ s.sess.state = .receiving ∧ s.sess.handleOpen = true ∧
      d.length ≤ 1024 := by
  obtain ⟨hphase, k, hcont⟩ := (s.bkReq_eq_some _).1 hout
  obtain ⟨hreg, hph, -⟩ := s.inv_iff.1 hinv
  obtain ⟨-, -, -, hpending⟩ := (State.phaseInv_of_waiting hphase hcont).1 hph
  obtain ⟨q, rfl⟩ := Pending.cont_of_write hpending
  obtain ⟨hreq, -, hstate, -, hlen⟩ := pendingInv_dataWrite.1 hpending
  cases hreq
  exact ⟨rfl, rfl, hstate, hreg.handleOpen_of_receiving hstate, hlen⟩

/-- What an answer does to the count: only an accepted write advances it, by the length of its data. -/
theorem resume_receivedBytes {k : Cont} {a : BkResp} {s u : State} (h : resume k a s = .next u) :
    u.sess.receivedBytes = s.sess.receivedBytes ∨ u.sess.receivedBytes = 0 ∨
    ∃ q p, k = .dataWrite q p ∧ a = .ok ∧ u.sess.receivedBytes = s.sess.receivedBytes + BitVec.ofNat 32 p.length := by
  rcases resume_ruleResult h with ⟨q, size, fcrc, hd, -, -, rfl⟩ | ⟨q, p, hk, ha, rfl⟩ | hrule
  · exact .inr (.inl rfl)
  · exact .inr (.inr ⟨q, p, hk, ha, by rw [State.acceptData_eq]⟩)
  · exact hrule.receivedBytes.imp_right .inl

/-- What a transition does to the count (R26). -/
theorem transition_receivedBytes {s u : State} (hinv : s.Inv) (h : s.transition = .next u) :
    u.sess.receivedBytes = s.sess.receivedBytes ∨ u.sess.receivedBytes = 0 ∨
    ∃ hd d, s.bkReq = some (.write hd s.sess.receivedBytes d) ∧ s.env.bkResp.head? = some .ok ∧
      u.sess.receivedBytes = s.sess.receivedBytes + BitVec.ofNat 32 d.length := by
  rcases transition_next h with ⟨-, rfl⟩ | ⟨-, -, rfl⟩ | ⟨-, -, -, hstart⟩ | ⟨-, -, -, -, rfl⟩ |
    ⟨-, hphase, ⟨r, k⟩, a, as, hcont, hbk, hresume⟩ | ⟨-, -, -, rfl⟩ | ⟨-, -, -, b, rest, -, rfl⟩ | ⟨-, -, rfl⟩
  · exact .inr (.inl rfl)
  · exact .inl (by rw [State.scanStep_sess])
  · rcases startFrame_ruleResult hstart with ⟨c, rfl⟩ | hrule
    · exact .inl rfl
    · exact hrule.receivedBytes.imp_right .inl
  · exact .inl rfl
  · rcases resume_receivedBytes hresume with hsame | hzero | ⟨q, p, rfl, rfl, hsum⟩
    · exact .inl hsame
    · exact .inr (.inl hzero)
    · obtain ⟨-, hph, -⟩ := s.inv_iff.1 hinv
      obtain ⟨-, -, -, hpending⟩ := (State.phaseInv_of_waiting hphase hcont).1 hph
      obtain ⟨rfl, -⟩ := pendingInv_dataWrite.1 hpending
      exact .inr (.inr ⟨_, p, State.bkReq_of_exec hphase hcont, by rw [hbk]; rfl, hsum⟩)
  · exact .inl rfl
  · exact .inl rfl
  · exact .inl rfl

/-- Settles O59: a write just issued is outstanding in the next state, whose invariant says where it goes; the count by the
transitions. -/
theorem writesFollowTheCount : Obligations.WritesFollowTheCount := by
  intro s t hinv _ h
  constructor
  · intro hd off d hissued
    exact (step_keeps_inv hinv h).outstanding_write (step_issued_outstanding h hissued)
  · obtain ⟨u, hu, rfl⟩ := step_next h
    rw [State.advance_sess]
    exact transition_receivedBytes hinv hu

end Sys2Proof.Machine
end

section
/-! PROOFS. What an accepted payload leaves in the image offset space (spec/20_memory.md R60, R61). -/

namespace Sys2Proof.Machine

/-! ### Bytes written from an offset up -/

theorem Memory.putAll_cons (m : Memory) (a : Nat) (b : Byte) (r : List Byte) :
    m.putAll a (b :: r) = (m.put (a % imageSize) b).putAll (a + 1) r := rfl

/-- An offset that no byte goes to reads as before. -/
theorem Memory.read_putAll_of_forall_ne (p : List Byte) (m : Memory) (a x : Nat)
    (h : ∀ i < p.length, x ≠ (a + i) % imageSize) : (m.putAll a p).read x = m.read x := by
  induction p generalizing m a with
  | nil => rfl
  | cons b r ih =>
    have hfirst : a % imageSize ≠ x := (h 0 (Nat.succ_pos _)).symm
    have hrest : ∀ i < r.length, x ≠ (a + 1 + i) % imageSize := fun i hi => by
      rw [Nat.add_assoc, Nat.add_comm 1 i]
      exact h (i + 1) (Nat.succ_lt_succ hi)
    rw [Memory.putAll_cons, ih _ _ hrest, Memory.read_put, if_neg hfirst]

/-- Each byte is read back at its own offset: with no more bytes than offsets, none is written over by a later one that has
wrapped round. -/
theorem Memory.read_putAll (p : List Byte) (m : Memory) (a i : Nat) (hlen : p.length ≤ imageSize) (hi : i < p.length) :
    (m.putAll a p).read ((a + i) % imageSize) = some p[i] := by
  induction p generalizing m a i with
  | nil => simp at hi
  | cons b r ih =>
    rw [List.length_cons] at hlen
    rw [Memory.putAll_cons]
    cases i with
    | zero =>
      have hlater : ∀ j < r.length, a % imageSize ≠ (a + 1 + j) % imageSize := by
        unfold imageSize at hlen ⊢
        omega
      rw [Nat.add_zero a, Memory.read_putAll_of_forall_ne r _ _ _ hlater, Memory.read_put, if_pos rfl]
      rfl
    | succ j =>
      rw [show a + (j + 1) = a + 1 + j by omega]
      exact ih _ (a + 1) j (by omega) (Nat.lt_of_succ_lt_succ hi)

/-! ### The step that resumes DATA with OK -/

/-- A step that resumes a rule: the answer is taken, then the environment does its part (45_driver.md R282). -/
theorem step_of_answer {s t : State} {pd : Pending} {r : BkResp} {answers : List BkResp} (hrst : s.env.rst = false)
    (hphase : s.eng.phase = .exec) (hcont : s.eng.cont = some pd) (hbk : s.env.bkResp = r :: answers)
    (h : step s = .next t) : ∃ u, resume pd.cont r s.takeAnswer = .next u ∧ t = u.advance := by
  obtain ⟨u, hu, ht⟩ := step_next h
  have hresume : s.transition = resume pd.cont r s.takeAnswer := by
    simp [State.transition, State.awaitAnswer, hrst, hphase, hcont, hbk]
  exact ⟨u, hresume.symm.trans hu, ht⟩

/-- The write of R203 is recorded at the running offset. -/
theorem State.acceptData_image (s : State) (q : U16) (p : List Byte) :
    (s.acceptData q p).image = s.image.putAll s.sess.receivedBytes.toNat p := by
  rw [State.acceptData_eq]
  rfl

/-- Settles O37: the outstanding write is at the running offset and of at most 1024 bytes (the invariant), so its bytes do
not overwrite one another. -/
theorem payloadReachesTheImage : Obligations.PayloadReachesTheImage := by
  intro w t hd off q p answers hinv hrst hphase hcont hbk h
  obtain ⟨rfl, -, -, -, hlen⟩ := hinv.outstanding_write (State.bkReq_of_exec hphase hcont)
  obtain ⟨u, hu, rfl⟩ := step_of_answer hrst hphase hcont hbk h
  cases hu
  rw [State.advance_image, State.acceptData_image]
  have hfits : p.length ≤ imageSize := hlen.trans (by decide)
  exact ⟨fun i hi => Memory.read_putAll p _ _ i hfits hi, fun a ha => Memory.read_putAll_of_forall_ne p _ _ a ha⟩

end Sys2Proof.Machine
end

section
/-! PROOFS. The writes of a transfer are contiguous (spec/20_memory.md R70): where the next write goes, what a transition does
to it, and the induction over a run. -/

namespace Sys2Proof.Machine

/-! ### Where the next write goes -/

/-- Unless a transfer is begun first, the next write goes to offset `o`: to the running offset, or past the write that is
outstanding; a state that awaits the answer to END, SET_BOOT or ABORT issues no write any more. -/
structure State.AwaitsWriteAt (s : State) (o : U32) : Prop where
  atRest : s.bkReq = none → s.sess.state = .receiving → o = s.sess.receivedBytes
  afterWrite : ∀ hd off d, s.bkReq = some (.write hd off d) → o = s.sess.receivedBytes + BitVec.ofNat 32 d.length
  noBegin : ∀ size, s.bkReq ≠ some (.beginUpdate size)

/-- The requests that end a transfer. -/
def BkReq.endsTransfer : BkReq → Prop
  | .beginUpdate _ | .write _ _ _ => False
  | .endUpdate _ | .abortUpdate _ | .setBoot _ => True

theorem writesContinue_cons_of_endsTransfer {q : BkReq} (hq : q.endsTransfer) (o : U32) (rs : List BkReq) :
    WritesContinue o (q :: rs) ↔ WritesContinue o rs := by
  cases q with
  | beginUpdate | write => exact hq.elim
  | endUpdate | abortUpdate | setBoot => exact Iff.rfl

theorem State.bkReq_of_cont_none {s : State} (hcont : s.eng.cont = none) : s.bkReq = none := by
  simp [State.bkReq, hcont]

theorem State.awaitsWriteAt_of_none {s : State} {o : U32} (hout : s.bkReq = none)
    (hrest : s.sess.state = .receiving → o = s.sess.receivedBytes) : s.AwaitsWriteAt o :=
  ⟨fun _ => hrest, by simp [hout], by simp [hout]⟩

theorem State.awaitsWriteAt_of_write {s : State} {hd : Handle} {off : U32} {d : List Byte}
    (hout : s.bkReq = some (.write hd off d)) : s.AwaitsWriteAt (s.sess.receivedBytes + BitVec.ofNat 32 d.length) :=
  ⟨by simp [hout], fun _ _ _ h => by cases hout.symm.trans h; rfl, by simp [hout]⟩

theorem State.awaitsWriteAt_of_endsTransfer {s : State} {q : BkReq} (hq : q.endsTransfer) (hout : s.bkReq = some q)
    (o : U32) : s.AwaitsWriteAt o :=
  ⟨by simp [hout], fun _ _ _ h => by cases hout.symm.trans h; exact hq.elim,
    fun _ h => by cases hout.symm.trans h; exact hq.elim⟩

theorem State.AwaitsWriteAt.advance {s : State} {o : U32} (h : s.AwaitsWriteAt o) : s.advance.AwaitsWriteAt o := by
  have hout : s.advance.bkReq = s.bkReq := by simp [State.bkReq]
  exact ⟨by simpa [hout] using h.atRest, by simpa [hout] using h.afterWrite, by simpa [hout] using h.noBegin⟩

/-! ### One step -/

/-- What a step from a state that awaits a write at `o` may add to the requests issued before it, and where the next write
goes after it. -/
inductive State.ContinuesAt (o : U32) (issued : List BkReq) (u : State) : Prop
  | silent (reqs : u.out.reqs = issued) (awaits : u.AwaitsWriteAt o)
  | write (hd : Handle) (d : List Byte) (reqs : u.out.reqs = issued ++ [.write hd o d])
      (awaits : u.AwaitsWriteAt (o + BitVec.ofNat 32 d.length))
  | begins (size : U32) (reqs : u.out.reqs = issued ++ [.beginUpdate size])
  | ends (q : BkReq) (hq : q.endsTransfer) (reqs : u.out.reqs = issued ++ [q]) (awaits : ∀ o', u.AwaitsWriteAt o')

theorem State.ContinuesAt.advance {o : U32} {issued : List BkReq} {u : State} (h : u.ContinuesAt o issued) :
    u.advance.ContinuesAt o issued := by
  cases h with
  | silent hreqs hu => exact .silent (by rwa [State.advance_out]) hu.advance
  | write hd d hreqs hu => exact .write hd d (by rwa [State.advance_out]) hu.advance
  | begins size hreqs => exact .begins size (by rwa [State.advance_out])
  | ends q hq hreqs hu => exact .ends q hq (by rwa [State.advance_out]) fun o' => (hu o').advance

section
variable {s u : State} {o : U32}

/-- A step that issues nothing and leaves no request outstanding: RECEIVING is left, or the count is still `o`. -/
theorem State.continuesAt_of_rest {issued : List BkReq} (hcont : u.eng.cont = none) (hreqs : u.out.reqs = issued)
    (hrest : u.sess.state = .receiving → o = u.sess.receivedBytes) : u.ContinuesAt o issued :=
  .silent hreqs (State.awaitsWriteAt_of_none (State.bkReq_of_cont_none hcont) hrest)

theorem State.continuesAt_request (s : State) (q : BkReq) (hq : q.endsTransfer) (k : Cont) (o : U32) :
    (s.request q k).ContinuesAt o s.out.reqs :=
  .ends q hq rfl (State.awaitsWriteAt_of_endsTransfer hq (State.bkReq_of_exec rfl rfl))

/-- DATA's write goes to the running offset (R203). -/
theorem State.continuesAt_issueWrite (s : State) (q : U16) (p : List Byte) :
    (s.issueWrite q p).ContinuesAt s.sess.receivedBytes s.out.reqs :=
  .write s.sess.handle p rfl (State.awaitsWriteAt_of_write (State.bkReq_of_exec rfl rfl))

/-- The session clear leaves IDLE (R240). -/
theorem State.continuesAt_endAbort (s : State) (k : AfterAbort) (o : U32) : (s.endAbort k).ContinuesAt o s.out.reqs :=
  State.continuesAt_of_rest (by simp) (by simp) (by simp)

theorem State.continuesAt_abortInternal (s : State) (k : AfterAbort) (o : U32) :
    (s.abortInternal k).ContinuesAt o s.out.reqs := by
  rcases s.abortInternal_cases k with ⟨-, h⟩ | ⟨-, h⟩ <;> rw [h]
  · exact s.continuesAt_request (.abortUpdate _) trivial _ o
  · exact s.continuesAt_endAbort k o

/-- `wrongState` never enters RECEIVING (R236). -/
theorem State.continuesAt_wrongState (hstate : s.sess.state ≠ .receiving) (q : U16) (o : U32) :
    (s.wrongState q).finish.ContinuesAt o s.out.reqs := by
  rw [State.wrongState_eq]
  refine State.continuesAt_of_rest rfl rfl fun hu => absurd hu ?_
  simp only [State.finish_sess]
  split_ifs
  · simp
  · exact hstate

/-- A command begun with no request outstanding: DATA alone writes, and only in RECEIVING. -/
theorem exec_continuesAt {i : Instr} (hrest : s.sess.state = .receiving → o = s.sess.receivedBytes)
    (h : exec i s = .next u) : u.ContinuesAt o s.out.reqs := by
  rcases exec_next h with ⟨c, -, rfl⟩ | ⟨-, hstate, rfl⟩ | ⟨-, -, rfl⟩ | ⟨-, hstate, -, -, rfl⟩ |
    ⟨-, -, c, -, rfl⟩ | ⟨-, -, -, rfl⟩ | ⟨-, rfl⟩ | ⟨-, rfl⟩ | ⟨-, -, rfl⟩
  · exact State.continuesAt_of_rest rfl rfl hrest
  · exact State.continuesAt_wrongState hstate _ o
  · exact .begins _ rfl
  · obtain rfl := hrest hstate
    exact State.continuesAt_issueWrite { s with sess := { s.sess with imageHeaderChecked := true } } _ _
  · exact (s.nack _ c).continuesAt_abortInternal _ o
  · exact State.continuesAt_request { s with sess := { s.sess with state := .verifying, handleOpen := false } }
      (.endUpdate _) trivial _ o
  · exact s.continuesAt_abortInternal _ o
  · exact State.continuesAt_of_rest rfl rfl hrest
  · exact State.continuesAt_of_rest rfl rfl (by simp)

theorem startFrame_continuesAt (hcont : s.eng.cont = none)
    (hrest : s.sess.state = .receiving → o = s.sess.receivedBytes) (h : s.startFrame = .next u) :
    u.ContinuesAt o s.out.reqs := by
  rcases startFrame_next h with ⟨e, -, rfl⟩ | ⟨fr, -, rfl⟩ | ⟨i, -, hi⟩
  · exact State.continuesAt_of_rest hcont rfl hrest
  · exact State.continuesAt_of_rest rfl rfl hrest
  · exact exec_continuesAt hrest hi

/-- A command resumed. An accepted write moves the running offset past its data; with every other answer the transfer ends
or has ended. -/
theorem resume_continuesAt {pd : Pending} {r : BkResp} (hpending : pd.Inv s)
    (hwrite : ∀ hd off d, pd.req = .write hd off d → o = s.sess.receivedBytes + BitVec.ofNat 32 d.length)
    (hbegin : ∀ size, pd.req ≠ .beginUpdate size) (h : resume pd.cont r s = .next u) : u.ContinuesAt o s.out.reqs := by
  obtain ⟨req, k⟩ := pd
  rcases resume_next h with ⟨q, size, fcrc, hd, rfl, -, rfl⟩ | ⟨q, size, fcrc, rfl, -, rfl⟩ | ⟨q, p, rfl, -, rfl⟩ |
    ⟨q, p, rfl, -, rfl⟩ | ⟨q, rfl, -, rfl⟩ | ⟨q, rfl, -, rfl⟩ | ⟨q, rfl, -, rfl⟩ | ⟨q, rfl, -, rfl⟩ | ⟨a, rfl, -, rfl⟩
  · exact absurd (pendingInv_startBegin.1 hpending).1 (hbegin size)
  · exact absurd (pendingInv_startBegin.1 hpending).1 (hbegin size)
  · obtain ⟨hreq, -⟩ := pendingInv_dataWrite.1 hpending
    rw [State.acceptData_eq]
    exact State.continuesAt_of_rest rfl rfl fun _ => hwrite _ _ _ hreq
  · exact (s.nack q .flashWrite).continuesAt_abortInternal .finished o
  · exact s.continuesAt_request (.setBoot _) trivial _ o
  · obtain ⟨-, -, hstate⟩ := pendingInv_endEnd.1 hpending
    exact State.continuesAt_of_rest rfl rfl (by simp [hstate])
  · exact State.continuesAt_of_rest rfl rfl (by simp)
  · obtain ⟨-, -, hstate⟩ := pendingInv_endSetBoot.1 hpending
    exact State.continuesAt_of_rest rfl rfl (by simp [hstate])
  · exact State.continuesAt_endAbort { s with sess := { s.sess with handleOpen := false } } a o

/-- A step in SCAN issues nothing: a frame that begins to run has no request outstanding yet (R160). -/
theorem State.cont_scanStep (hcont : s.eng.cont = none) : s.scanStep.eng.cont = none := by
  rcases s.scanStep_cases with ⟨-, h⟩ | ⟨b, rest, -, h⟩ <;> rw [h]
  · exact hcont
  · rcases State.rxStep_cases { s with env := { s.env with rx := rest } } b with ⟨-, h⟩ | ⟨f, -, h⟩ <;> rw [h]
    exact hcont

/-- Every transition without reset. -/
theorem transition_continuesAt (hinv : s.Inv) (hrst : s.env.rst = false) (ho : s.AwaitsWriteAt o)
    (h : s.transition = .next u) : u.ContinuesAt o s.out.reqs := by
  obtain ⟨-, hph, -⟩ := s.inv_iff.1 hinv
  rcases transition_next h with ⟨hrst', -⟩ | ⟨-, hphase, rfl⟩ | ⟨-, -, hcont, hstart⟩ | ⟨-, -, -, -, rfl⟩ |
    ⟨-, hphase, pd, a, as, hcont, -, hresume⟩ | ⟨-, -, -, rfl⟩ | ⟨-, hphase, -, b, rest, -, rfl⟩ | ⟨-, -, rfl⟩
  · simp [hrst] at hrst'
  · obtain ⟨-, -, hcont, -⟩ := (State.phaseInv_of_scan hphase).1 hph
    refine State.continuesAt_of_rest (State.cont_scanStep hcont) s.scanStep_reqs ?_
    rw [State.scanStep_sess]
    exact ho.atRest (State.bkReq_of_cont_none hcont)
  · exact startFrame_continuesAt hcont (ho.atRest (State.bkReq_of_cont_none hcont)) hstart
  · exact .silent rfl ho
  · obtain ⟨-, -, -, hpending⟩ := (State.phaseInv_of_waiting hphase hcont).1 hph
    have hout : s.bkReq = some pd.req := State.bkReq_of_exec hphase hcont
    have hwrite : ∀ hd off d, pd.req = .write hd off d → o = s.sess.receivedBytes + BitVec.ofNat 32 d.length :=
      fun hd off d hreq => ho.afterWrite hd off d (hreq ▸ hout)
    have hbegin : ∀ size, pd.req ≠ .beginUpdate size := fun size hreq => ho.noBegin size (hreq ▸ hout)
    exact resume_continuesAt (s := s.takeAnswer) hpending hwrite hbegin hresume
  · exact .silent rfl ho
  · obtain ⟨-, hcont, -⟩ := (State.phaseInv_of_tx hphase).1 hph
    exact State.continuesAt_of_rest hcont rfl (ho.atRest (State.bkReq_of_cont_none hcont))
  · exact .silent rfl ho

theorem step_continuesAt (hinv : s.Inv) (hrst : s.env.rst = false) (ho : s.AwaitsWriteAt o) (h : step s = .next u) :
    u.ContinuesAt o s.out.reqs := by
  obtain ⟨v, hv, rfl⟩ := step_next h
  exact (transition_continuesAt hinv hrst ho hv).advance

end

/-! ### A run -/

/-- A run of one step more is a step, then the run. -/
theorem run_succ_next {n : Nat} {s t : State} (h : run (n + 1) s = .next t) :
    ∃ u, step s = .next u ∧ run n u = .next t := by
  unfold run at h
  split at h
  · rename_i u hu
    exact ⟨u, hu, h⟩
  · cases h
  · cases h

/-- With no reset now and none to come, none comes. -/
theorem State.NeverReset.step {s t : State} (hs : s.NeverReset) (h : step s = .next t) : t.NeverReset := by
  obtain ⟨hrst, hlater⟩ := hs
  obtain ⟨u, hu, rfl⟩ := step_next h
  obtain ⟨-, -, -, henv, hsame, -⟩ := transition_portMoves hrst hu
  have hurst : u.env.rst = false := by rw [henv]; exact hrst
  rw [← hsame] at hlater
  unfold State.advance
  split
  · exact ⟨hurst, hlater⟩
  · rename_i rest hl
    exact ⟨hurst, fun e he => hlater e (by simp [hl, he])⟩
  · rename_i e rest hl
    exact ⟨hlater e (by simp [hl]), fun e' he' => hlater e' (by simp [hl, he'])⟩

/-- The record of the requests only grows. -/
theorem run_reqs_grow : ∀ (n : Nat) (s t : State), run n s = .next t → s.out.reqs <+: t.out.reqs
  | 0, _, _, h => by cases h; exact ⟨[], List.append_nil _⟩
  | n + 1, s, t, h => by
    obtain ⟨u, hstep, hrun⟩ := run_succ_next h
    obtain ⟨v, hv, rfl⟩ := step_next hstep
    have hone : s.out.reqs <+: v.advance.out.reqs := by
      rw [State.advance_out]
      rcases transition_issuesAtMostOne hv with hsame | ⟨q, hq, -⟩
      · rw [hsame]
      · exact ⟨[q], hq.symm⟩
    exact hone.trans (run_reqs_grow n _ t hrun)

/-- The requests a run issues from a state that awaits a write at `o`: unless a transfer is begun, the writes among them
continue one another from `o` on. -/
theorem run_writesContinue (n : Nat) (s t : State) (o : U32) (hinv : s.Inv) (hnr : s.NeverReset)
    (ho : s.AwaitsWriteAt o) (h : run n s = .next t) :
    ∃ rs, t.out.reqs = s.out.reqs ++ rs ∧ ((∀ size, .beginUpdate size ∉ rs) → WritesContinue o rs) := by
  induction n generalizing s o with
  | zero =>
    cases h
    exact ⟨[], (List.append_nil _).symm, fun _ => trivial⟩
  | succ n ih =>
    obtain ⟨u, hstep, hrun⟩ := run_succ_next h
    have huinv : u.Inv := step_keeps_inv hinv hstep
    have hunr : u.NeverReset := hnr.step hstep
    obtain ⟨hrst, -⟩ := hnr
    cases step_continuesAt hinv hrst ho hstep with
    | silent hreqs hu =>
      rw [← hreqs]
      exact ih u o huinv hunr hu hrun
    | write hd d hreqs hu =>
      obtain ⟨rs, ht, hrs⟩ := ih u _ huinv hunr hu hrun
      exact ⟨.write hd o d :: rs, by rw [ht, hreqs]; simp,
        fun hno => ⟨rfl, hrs fun size hmem => hno size (List.mem_cons_of_mem _ hmem)⟩⟩
    | begins size hreqs =>
      obtain ⟨rs, ht⟩ := run_reqs_grow n u t hrun
      exact ⟨.beginUpdate size :: rs, by rw [← ht, hreqs]; simp, fun hno => absurd List.mem_cons_self (hno size)⟩
    | ends q hq hreqs hu =>
      obtain ⟨rs, ht, hrs⟩ := ih u o huinv hunr (hu o) hrun
      exact ⟨q :: rs, by rw [ht, hreqs]; simp, fun hno =>
        (writesContinue_cons_of_endsTransfer hq o rs).2 (hrs fun size hmem => hno size (List.mem_cons_of_mem _ hmem))⟩

/-- Settles O60: with no request outstanding the next write goes to the running offset; the induction is over the run. -/
theorem writesAreContiguous : Obligations.WritesAreContiguous := by
  intro n s t hinv hnr hout h hno
  have ho : s.AwaitsWriteAt s.sess.receivedBytes := State.awaitsWriteAt_of_none hout fun _ => rfl
  obtain ⟨rs, ht, hrs⟩ := run_writesContinue n s t _ hinv hnr ho h
  rw [ht, List.drop_left] at hno ⊢
  exact hrs hno

end Sys2Proof.Machine
end

section
/-! PROOFS. Where the fields of a frame stand (spec/30_encoding.md R80), the command codes (R84, R85), and the frames the
spec spells out (R105). -/

namespace Sys2Proof

/-! ### The fields of a frame: a body and what follows it (R80) -/

theorem le16_append_right (a b : List Byte) (i : Nat) (h : a.length ≤ i) : le16 (a ++ b) i = le16 b (i - a.length) := by
  have hnext : byteAt (a ++ b) (i + 1) = byteAt b (i - a.length + 1) := by
    rw [byteAt_append_right a b (i + 1) (by omega), Nat.sub_add_comm h]
  rw [le16, le16, byteAt_append_right a b i h, hnext]

section
variable (ver cmd : Byte) (seq : U16) (off : U32) (p t : List Byte)

theorem frame_marker1 : byteAt (frameBody ver cmd seq off p ++ t) 0 = 0xAA#8 := rfl
theorem frame_marker2 : byteAt (frameBody ver cmd seq off p ++ t) 1 = 0x55#8 := rfl
theorem frame_version : byteAt (frameBody ver cmd seq off p ++ t) 2 = ver := rfl
theorem frame_command : byteAt (frameBody ver cmd seq off p ++ t) 3 = cmd := rfl

theorem frame_sequence : le16 (frameBody ver cmd seq off p ++ t) 4 = seq := le16_of_bytes _ _ _ rfl rfl

theorem frame_offset : le32 (frameBody ver cmd seq off p ++ t) 6 = off := le32_of_bytes _ _ _ rfl rfl rfl rfl

theorem frame_length : le16 (frameBody ver cmd seq off p ++ t) 10 = BitVec.ofNat 16 p.length :=
  le16_of_bytes _ _ _ rfl rfl

/-- A length that fits the field is read back (R81 allows at most 1024). -/
theorem toNat_frame_length {p : List Byte} (hp : p.length < 2 ^ 16) :
    (le16 (frameBody ver cmd seq off p ++ t) 10).toNat = p.length := by
  rw [frame_length, BitVec.toNat_ofNat, Nat.mod_eq_of_lt hp]

theorem frame_payload : slice (frameBody ver cmd seq off p ++ t) 12 (12 + p.length) = p := by
  have hrest : (frameBody ver cmd seq off p ++ t).drop 12 = p ++ t := rfl
  rw [slice, hrest, Nat.add_sub_cancel_left, List.take_left]

/-- The bytes before position 12 + N, which the CRC-16 covers, are the body. -/
theorem frame_body : slice (frameBody ver cmd seq off p ++ t) 0 (12 + p.length) = frameBody ver cmd seq off p :=
  List.take_left' (frameBody_length ver cmd seq off p)

theorem byteAt_frame_rest (i : Nat) : byteAt (frameBody ver cmd seq off p ++ t) (12 + p.length + i) = byteAt t i := by
  rw [byteAt_append_right _ _ _ (by simp), frameBody_length, Nat.add_sub_cancel_left]

theorem le16_frame_rest : le16 (frameBody ver cmd seq off p ++ t) (12 + p.length) = le16 t 0 := by
  rw [le16_append_right _ _ _ (by simp), frameBody_length, Nat.sub_self]

end

theorem le16_frameTrailer (b : List Byte) : le16 (frameTrailer b) 0 = crc16 b := le16_of_bytes _ _ _ rfl rfl

/-- Settles O4: an encoded frame is its body, whose fields stand at fixed positions, and the trailer from 12 + N on. -/
theorem encodedFieldPositions : Obligations.EncodedFieldPositions := by
  intro cmd seq off p hp
  have hcrc : le16 (encodeFrame cmd seq off p) (12 + p.length) = crc16 (frameBody 0x01#8 cmd seq off p) :=
    (le16_frame_rest ..).trans (le16_frameTrailer _)
  have hbody : slice (encodeFrame cmd seq off p) 0 (12 + p.length) = frameBody 0x01#8 cmd seq off p := frame_body ..
  have hfooter (i : Nat) : byteAt (encodeFrame cmd seq off p) (12 + p.length + i) =
      byteAt (frameTrailer (frameBody 0x01#8 cmd seq off p)) i := byteAt_frame_rest ..
  refine ⟨encodeFrame_length .., frame_marker1 .., frame_marker2 .., frame_version .., frame_command ..,
    frame_sequence .., frame_offset .., toNat_frame_length _ _ _ _ _ (by omega), frame_payload ..,
    hcrc.trans (congrArg crc16 hbody.symm), ?_, ?_⟩
  · rw [show 14 + p.length = 12 + p.length + 2 by omega, hfooter]
    rfl
  · rw [show 15 + p.length = 12 + p.length + 3 by omega, hfooter]
    rfl

/-! ### The command codes (R84, R85) -/

@[simp] theorem opcodeOf_code (o : Opcode) : opcodeOf o.code = some o := by cases o <;> rfl

theorem encode_instr (o : Opcode) (seq : U16) (off : U32) (p : List Byte) :
    encode (o.instr seq off p) = encodeFrame o.code seq off p := by
  simp only [encode, Opcode.instr_opcode, Opcode.instr_seq, Opcode.instr_off, Opcode.instr_payload]

/-- R85: the reserved bytes, between and around the codes 01 to 06 and 81 to 87. -/
theorem opcodeOf_eq_none_iff (b : Byte) :
    opcodeOf b = none ↔ b = 0x00#8 ∨ (0x07#8 ≤ b ∧ b ≤ 0x80#8) ∨ 0x88#8 ≤ b := by
  have hvalue : (b = 0x00#8 ∨ (0x07#8 ≤ b ∧ b ≤ 0x80#8) ∨ 0x88#8 ≤ b) ↔
      b.toNat = 0 ∨ (7 ≤ b.toNat ∧ b.toNat ≤ 128) ∨ 136 ≤ b.toNat := by
    simp only [BitVec.le_def, ← BitVec.toNat_inj, BitVec.toNat_ofNat, Nat.reducePow, Nat.reduceMod]
  rw [hvalue, opcodeOf]
  split
  case h_14 =>
    simp only [imp_false, true_iff] at *
    omega
  all_goals
    simp only [reduceCtorEq, false_iff]
    omega

/-- Settles O11: each row of the table is a command with its own constructor and code. -/
theorem commandCodes : Obligations.CommandCodes := by
  refine ⟨fun e he => ?_, opcodeOf_code, opcodeOf_eq_none_iff⟩
  have hrow : e.1 = e.2.1.instr ∧ e.2.1.code = e.2.2 := by fin_cases he <;> exact ⟨rfl, rfl⟩
  obtain ⟨hinstr, hcode⟩ := hrow
  rw [hinstr, ← hcode]
  exact ⟨rfl, opcodeOf_code _, fun seq off p => ⟨Opcode.instr_opcode .., encode_instr ..⟩⟩

/-- Settles O10: fixed byte strings, evaluated through the checks of `decodeFrame`, the CRC-16 among them. -/
theorem spelledOutFramesDecode : Obligations.SpelledOutFramesDecode :=
  ⟨by decide +kernel, by decide +kernel, by decide +kernel⟩

end Sys2Proof
end

section
/-! PROOFS. The operands a command does not read (spec/30_encoding.md R87, R97, 43_commands.md R195, R196). -/

namespace Sys2Proof.Machine

theorem byteAt_eq_of_take_eq {a b : List Byte} {k i : Nat} (h : a.take k = b.take k) (hi : i < k) :
    byteAt a i = byteAt b i := by
  have hread : a[i]? = b[i]? := by rw [← List.getElem?_take_of_lt hi, h, List.getElem?_take_of_lt hi]
  rw [byteAt, byteAt, List.getD_eq_getElem?_getD, List.getD_eq_getElem?_getD, hread]

theorem le32_eq_of_take_eq {a b : List Byte} {k i : Nat} (h : a.take k = b.take k) (hi : i + 3 < k) :
    le32 a i = le32 b i := by
  have hbyte (j : Nat) (hj : j ≤ i + 3) : byteAt a j = byteAt b j := byteAt_eq_of_take_eq h (by omega)
  simp only [le32, le16, hbyte i (by omega), hbyte (i + 1) (by omega), hbyte (i + 2) (by omega),
    hbyte (i + 2 + 1) (by omega)]

/-- START reads its payload's length, against 76, and the two fields of its first eight bytes (R95, R192). -/
theorem execStart_congr (seq : U16) (off off' : U32) {p p' : List Byte} (s : State)
    (hlen : p.length < 76 ↔ p'.length < 76) (hsize : startFirmwareSize p = startFirmwareSize p')
    (hcrc : startFirmwareCRC32 p = startFirmwareCRC32 p') : execStart seq off p s = execStart seq off' p' s := by
  simp only [execStart, Config.startLen, hlen, hsize, hcrc]

/-- Settles O48: the fields START reads lie in the first eight bytes; the rules of the other four name neither the offset
nor the payload. -/
theorem ignoredOperands : Obligations.IgnoredOperands := by
  intro s seq off off' p p'
  refine ⟨fun hlong hprefix => ?_, rfl, rfl, rfl, rfl⟩
  have hsize : startFirmwareSize p = startFirmwareSize p' := le32_eq_of_take_eq hprefix (by decide)
  have hcrc : startFirmwareCRC32 p = startFirmwareCRC32 p' := le32_eq_of_take_eq hprefix (by decide)
  exact execStart_congr seq off off' s (by omega) hsize hcrc

end Sys2Proof.Machine
end

section
/-! PROOFS. The CRCs (spec/40_crc.md): one step of the CRC-16 loses nothing of its register or of its byte (R120), so a
changed byte stays visible (R123); the streaming forms (R121, R126) and the check values (R123, R128). -/

namespace Sys2Proof

/-! ### Each step of the CRC-16 is injective (R120) -/

theorem injective_repeat {α : Type} {f : α → α} (hf : f.Injective) (n : Nat) : (Nat.repeat f n).Injective := by
  induction n with
  | zero => exact Function.injective_id
  | succ n ih => exact hf.comp ih

theorem injective_foldl {α β : Type} {f : α → β → α} (hf : ∀ b, Function.Injective (f · b)) (l : List β) :
    Function.Injective (l.foldl f) := by
  induction l with
  | nil => exact Function.injective_id
  | cons b l ih => exact ih.comp (hf b)

/-- The polynomial is odd: bit 0 tells whether it was XORed in. -/
theorem crc16Bit_lowBit (c : U16) : (crc16Bit c).getLsbD 0 = c.getLsbD 15 := by
  rw [crc16Bit]
  split <;> simp_all

theorem eq_of_shiftLeft_one_eq {c d : U16} (htop : c.getLsbD 15 = d.getLsbD 15) (hrest : c <<< 1 = d <<< 1) : c = d := by
  ext i hi
  by_cases hi15 : i = 15
  · simpa [hi15] using htop
  · have hbit := congrArg (BitVec.getLsbD · (i + 1)) hrest
    simpa [show i + 1 < 16 by omega] using hbit

/-- Bit 0 of the result gives back bit 15, and the shifted register the other fifteen. -/
theorem crc16Bit_injective : crc16Bit.Injective := by
  intro c d h
  have htop : c.getLsbD 15 = d.getLsbD 15 := by rw [← crc16Bit_lowBit, ← crc16Bit_lowBit, h]
  refine eq_of_shiftLeft_one_eq htop ?_
  rw [crc16Bit, crc16Bit, htop] at h
  split at h
  · exact (BitVec.xor_left_inj _).mp h
  · exact h

theorem crc16Byte_left_injective (b : Byte) : Function.Injective (crc16Byte · b) :=
  (injective_repeat crc16Bit_injective 8).comp fun _ _ => (BitVec.xor_left_inj _).mp

/-- The byte stands in the register's upper half, whole. -/
theorem upperByte_injective : Function.Injective fun b : Byte => (b.zeroExtend 16 <<< 8 : U16) := by
  intro x y h
  refine BitVec.eq_of_getLsbD_eq fun i hi => ?_
  have hbit := congrArg (BitVec.getLsbD · (i + 8)) h
  simpa [show i + 8 < 16 by omega, show i < 16 by omega] using hbit

theorem crc16Byte_right_injective (c : U16) : (crc16Byte c).Injective :=
  (injective_repeat crc16Bit_injective 8).comp fun _ _ h => upperByte_injective ((BitVec.xor_right_inj _).mp h)

/-! ### Feeding byte strings (R121) -/

@[simp] theorem crc16Feed_cons (c : U16) (x : Byte) (d : List Byte) :
    crc16Feed c (x :: d) = crc16Feed (crc16Byte c x) d := rfl

theorem crc16Feed_append (c : U16) (d0 d1 : List Byte) : crc16Feed c (d0 ++ d1) = crc16Feed (crc16Feed c d0) d1 :=
  List.foldl_append

theorem crc16Feed_injective (d : List Byte) : Function.Injective (crc16Feed · d) :=
  injective_foldl crc16Byte_left_injective d

/-- Settles O8: the changed byte makes two registers, and the same bytes after it keep them apart. -/
theorem crc16SeesOneChangedByte : Obligations.Crc16SeesOneChangedByte := by
  intro a b x y hxy heq
  rw [crc16, crc16, crc16Feed_append, crc16Feed_append, crc16Feed_cons, crc16Feed_cons] at heq
  exact hxy (crc16Byte_right_injective _ (crc16Feed_injective b heq))

end Sys2Proof

namespace Sys2Proof.Machine

theorem crc32Update_append (c : U32) (d0 d1 : List Byte) :
    crc32Update c (d0 ++ d1) = crc32Update (crc32Update c d0) d1 := List.foldl_append

/-- Settles O9: feeding is a fold over the bytes, and the check values are closed terms that evaluate. -/
theorem crcStreamingAndCheckValues : Obligations.CrcStreamingAndCheckValues := by
  refine ⟨fun d0 d1 => (crc16Feed_append _ d0 d1).symm, fun c d0 d1 => (crc32Update_append c d0 d1).symm,
    fun d => rfl, ?_⟩
  decide +kernel

end Sys2Proof.Machine
end

section
/-! PROOFS. The codec (spec/41_codec.md): the checks of `decode` in their order (R140), the round trips of `encode` and
`decode` (R150, R152), and what a frame with one byte replaced decodes to. -/

namespace Sys2Proof

/-! ### The checks of `decode` (R140) -/

/-- The opening and the closing marker stand where R140 looks for them. -/
def Marked (f : List Byte) : Prop :=
  byteAt f 0 = 0xAA#8 ∧ byteAt f 1 = 0x55#8 ∧ byteAt f (f.length - 2) = 0x55#8 ∧ byteAt f (f.length - 1) = 0xAA#8

theorem decodeFrame_of_not_marked {f : List Byte} (hmin : 16 ≤ f.length) (hmark : ¬ Marked f) :
    decodeFrame f = .bad .markersInvalid := by
  unfold decodeFrame
  split_ifs with hshort hopen hclose
  · exact absurd hmin (Nat.not_le.2 hshort)
  · rfl
  · rfl
  all_goals
    obtain ⟨h0, h1⟩ := not_or.1 hopen
    obtain ⟨h2, h3⟩ := not_or.1 hclose
    exact absurd ⟨not_not.1 h0, not_not.1 h1, not_not.1 h2, not_not.1 h3⟩ hmark

/-- The checks left once the markers are found: length, CRC, version. -/
theorem decodeFrame_of_marked {f : List Byte} (hmin : 16 ≤ f.length) (hmark : Marked f) :
    decodeFrame f =
      if 16 + (le16 f 10).toNat ≠ f.length then .bad .lengthMismatch
      else if le16 f (12 + (le16 f 10).toNat) ≠ crc16 (slice f 0 (12 + (le16 f 10).toNat)) then .bad .crcMismatch
      else if byteAt f 2 ≠ 0x01#8 then .bad .unsupportedVersion
      else .frame ⟨byteAt f 3, le16 f 4, le32 f 6, le16 f 10, slice f 12 (12 + (le16 f 10).toNat)⟩ := by
  obtain ⟨h0, h1, h2, h3⟩ := hmark
  have hsum : 12 + (le16 f 10).toNat + 4 = 16 + (le16 f 10).toNat := by omega
  rw [decodeFrame, if_neg (Nat.not_lt.2 hmin), if_neg (by simp [h0, h1]), if_neg (by simp [h2, h3]), hsum]

/-- A frame is answered only where every check on its markers, length and CRC has passed. -/
theorem checks_of_decodeFrame {f : List Byte} {fr : Frame} (h : decodeFrame f = .frame fr) :
    Marked f ∧ 16 + (le16 f 10).toNat = f.length ∧
      le16 f (12 + (le16 f 10).toNat) = crc16 (slice f 0 (12 + (le16 f 10).toNat)) := by
  have hmin : 16 ≤ f.length := by
    by_contra hshort
    rw [decodeFrame, if_pos (Nat.not_le.1 hshort)] at h
    cases h
  have hmark : Marked f := by
    by_contra hbad
    rw [decodeFrame_of_not_marked hmin hbad] at h
    cases h
  rw [decodeFrame_of_marked hmin hmark] at h
  split_ifs at h with hlen hcrc
  exact ⟨hmark, not_not.1 hlen, not_not.1 hcrc⟩

/-! ### Frames from their fields (R80) -/

/-- What R140 answers for a frame built from any version, command, operands and CRC field. -/
theorem decodeFrame_frameBody (ver cmd : Byte) (seq : U16) (off : U32) {p : List Byte} (crc : U16)
    (hp : p.length < 2 ^ 16) :
    decodeFrame (frameBody ver cmd seq off p ++ (bytes16 crc ++ [0x55#8, 0xAA#8])) =
      if crc ≠ crc16 (frameBody ver cmd seq off p) then .bad .crcMismatch
      else if ver ≠ 0x01#8 then .bad .unsupportedVersion
      else .frame ⟨cmd, seq, off, BitVec.ofNat 16 p.length, p⟩ := by
  have hsize : (frameBody ver cmd seq off p ++ (bytes16 crc ++ [0x55#8, 0xAA#8])).length = 16 + p.length := by
    simp only [List.length_append, frameBody_length, bytes16_length, List.length_cons, List.length_nil]
    omega
  have hmark : Marked (frameBody ver cmd seq off p ++ (bytes16 crc ++ [0x55#8, 0xAA#8])) := by
    refine ⟨rfl, rfl, ?_, ?_⟩
    · rw [hsize, show 16 + p.length - 2 = 12 + p.length + 2 by omega, byteAt_frame_rest]
      rfl
    · rw [hsize, show 16 + p.length - 1 = 12 + p.length + 3 by omega, byteAt_frame_rest]
      rfl
  have hcrc : le16 (bytes16 crc ++ [0x55#8, 0xAA#8]) 0 = crc := le16_of_bytes _ _ _ rfl rfl
  rw [decodeFrame_of_marked (by omega) hmark, toNat_frame_length _ _ _ _ _ hp, if_neg (not_not.2 hsize.symm),
    le16_frame_rest, hcrc, frame_body, frame_version, frame_command, frame_sequence, frame_offset, frame_length,
    frame_payload]

theorem slice_eq_byteAt_cons {b : List Byte} {lo hi : Nat} (h : lo < hi) (hlo : lo < b.length) :
    slice b lo hi = byteAt b lo :: slice b (lo + 1) hi := by
  have hhead : byteAt b lo = b[lo] := byteAt_of_getElem? b lo _ (List.getElem?_eq_getElem hlo)
  rw [slice, slice, List.drop_eq_getElem_cons hlo, hhead, show hi - lo = hi - (lo + 1) + 1 by omega,
    List.take_succ_cons]

theorem slice_self (b : List Byte) (i : Nat) : slice b i i = [] := by rw [slice, Nat.sub_self, List.take_zero]

theorem slice_header {f : List Byte} (hmin : 12 ≤ f.length) :
    slice f 0 12 =
      [byteAt f 0, byteAt f 1, byteAt f 2, byteAt f 3] ++ bytes16 (le16 f 4) ++ bytes32 (le32 f 6) ++
        bytes16 (le16 f 10) := by
  rw [bytes16_le16, bytes32_le32, bytes16_le16]
  simp (disch := omega) only [slice_eq_byteAt_cons, slice_self, Nat.reduceAdd]
  rfl

theorem slice_trailer {f : List Byte} {lo : Nat} (hlen : lo + 4 = f.length) :
    slice f lo (lo + 4) = bytes16 (le16 f lo) ++ [byteAt f (f.length - 2), byteAt f (f.length - 1)] := by
  rw [bytes16_le16, show f.length - 2 = lo + 2 by omega, show f.length - 1 = lo + 3 by omega]
  simp (disch := omega) only [slice_eq_byteAt_cons, slice_self, Nat.add_assoc, Nat.reduceAdd]
  rfl

theorem slice_append_slice {b : List Byte} {lo mid hi : Nat} (hlo : lo ≤ mid) (hhi : mid ≤ hi) :
    slice b lo mid ++ slice b mid hi = slice b lo hi := by
  rw [slice, slice, slice, show hi - lo = (mid - lo) + (hi - mid) by omega, List.take_add, List.drop_drop,
    show lo + (mid - lo) = mid by omega]

/-- A marked byte string of the length its header gives is a frame of the fields read from it. -/
theorem eq_frameBody_append {f : List Byte} (hmark : Marked f) (hlen : 16 + (le16 f 10).toNat = f.length) :
    f = frameBody (byteAt f 2) (byteAt f 3) (le16 f 4) (le32 f 6) (slice f 12 (12 + (le16 f 10).toNat)) ++
      (bytes16 (le16 f (12 + (le16 f 10).toNat)) ++ [0x55#8, 0xAA#8]) := by
  obtain ⟨h0, h1, h2, h3⟩ := hmark
  have hsize : BitVec.ofNat 16 (slice f 12 (12 + (le16 f 10).toNat)).length = le16 f 10 := by
    rw [slice_length, show min _ _ = (le16 f 10).toNat by omega, BitVec.ofNat_toNat, BitVec.setWidth_eq]
  have hbody : frameBody (byteAt f 2) (byteAt f 3) (le16 f 4) (le32 f 6) (slice f 12 (12 + (le16 f 10).toNat)) =
      slice f 0 12 ++ slice f 12 (12 + (le16 f 10).toNat) := by
    rw [frameBody, hsize, slice_header (by omega), h0, h1]
  have htrailer : bytes16 (le16 f (12 + (le16 f 10).toNat)) ++ [0x55#8, 0xAA#8] =
      slice f (12 + (le16 f 10).toNat) (12 + (le16 f 10).toNat + 4) := by
    rw [slice_trailer (by omega), h2, h3]
  rw [hbody, htrailer, slice_append_slice (by omega) (by omega), slice_append_slice (by omega) (by omega)]
  exact (List.take_of_length_le (by omega)).symm

/-! ### The round trips (R150, R152) -/

theorem decodeFrame_encodeFrame (cmd : Byte) (seq : U16) (off : U32) {p : List Byte} (hp : p.length < 2 ^ 16) :
    decodeFrame (encodeFrame cmd seq off p) = .frame ⟨cmd, seq, off, BitVec.ofNat 16 p.length, p⟩ :=
  (decodeFrame_frameBody 0x01#8 cmd seq off _ hp).trans
    ((if_neg (not_not.2 rfl)).trans (if_neg (not_not.2 rfl)))

/-- Settles O2: the round trip, and the example evaluated. -/
theorem frameRoundTrip : Obligations.FrameRoundTrip :=
  ⟨fun cmd seq off _ hp => decodeFrame_encodeFrame cmd seq off (by omega), by decide +kernel⟩

/-- Settles O6: of the checks left for such a frame, the CRC's comes before the version's. -/
theorem versionIsCheckedAfterTheCrc : Obligations.VersionIsCheckedAfterTheCrc := by
  intro ver cmd seq off p crc hp hver
  rw [List.append_assoc, decodeFrame_frameBody _ _ _ _ _ (by omega), if_pos hver, ite_not, apply_ite FrameResult.bad]

theorem decode_eq_instr_iff {f : List Byte} {i : Instr} :
    decode f = .instr i ↔
      ∃ fr o, decodeFrame f = .frame fr ∧ opcodeOf fr.command = some o ∧
        i = o.instr fr.sequence fr.offset fr.payload := by
  unfold decode
  constructor
  · intro h
    split at h
    · cases h
    · next fr hfr =>
      split at h
      · next o ho =>
        cases h
        exact ⟨fr, o, hfr, ho, rfl⟩
      · cases h
  · rintro ⟨fr, o, hfr, ho, rfl⟩
    simp only [hfr, ho]

/-- Settles O1: the frame comes back, and its command byte is the code of the instruction's command. -/
theorem decodeEncodeRoundTrip : Obligations.DecodeEncodeRoundTrip := by
  intro i hwf
  have hp : i.payload.length ≤ 1024 := of_decide_eq_true hwf
  exact decode_eq_instr_iff.2 ⟨_, i.opcode, decodeFrame_encodeFrame i.opcode.code i.seq i.off (by omega),
    opcodeOf_code i.opcode, i.eq_instr.symm⟩

theorem code_of_opcodeOf {b : Byte} {o : Opcode} (h : opcodeOf b = some o) : o.code = b := by
  unfold opcodeOf at h
  split at h <;> cases h <;> exact BitVec.eq_of_toNat_eq (Eq.symm ‹_›)

/-- A byte string that decodes to a frame passes every check of R140, so its bytes are the fields read and their CRC. -/
theorem eq_encodeFrame_of_decodeFrame {f : List Byte} {fr : Frame} (h : decodeFrame f = .frame fr) :
    f = encodeFrame fr.command fr.sequence fr.offset fr.payload ∧ fr.length.toNat = fr.payload.length := by
  obtain ⟨hmark, hlen, -⟩ := checks_of_decodeFrame h
  have hfields := eq_frameBody_append hmark hlen
  have hpayload : (slice f 12 (12 + (le16 f 10).toNat)).length < 2 ^ 16 := by
    rw [slice_length]
    omega
  have hread := (congrArg decodeFrame hfields).symm.trans h
  rw [decodeFrame_frameBody _ _ _ _ _ hpayload] at hread
  split_ifs at hread with hcrc hver
  cases hread
  refine ⟨hfields.trans ?_, Nat.mod_eq_of_lt hpayload⟩
  rw [not_not.1 hcrc, not_not.1 hver]
  rfl

/-- Settles O3: the bytes are those of the frame, whose command byte is the code of the instruction's command. -/
theorem decodedBytesAreTheEncoding : Obligations.DecodedBytesAreTheEncoding := by
  refine ⟨fun f i h => ?_, fun f fr h => eq_encodeFrame_of_decodeFrame h⟩
  obtain ⟨fr, o, hfr, ho, rfl⟩ := decode_eq_instr_iff.1 h
  rw [encode_instr, code_of_opcodeOf ho]
  exact (eq_encodeFrame_of_decodeFrame hfr).1

/-! ### One byte replaced -/

section
variable {f : List Byte} {k : Nat} {v : Byte}

theorem le16_eq_iff {a b : List Byte} {i : Nat} :
    le16 a i = le16 b i ↔ byteAt a i = byteAt b i ∧ byteAt a (i + 1) = byteAt b (i + 1) := by
  constructor
  · intro h
    have hbytes := congrArg bytes16 h
    rw [bytes16_le16, bytes16_le16] at hbytes
    simpa using hbytes
  · rintro ⟨h0, h1⟩
    rw [le16, le16, h0, h1]

theorem byteAt_set_self (hk : k < f.length) : byteAt (f.set k v) k = v := by
  rw [byteAt_set f k k v hk, if_pos rfl]

theorem byteAt_set_of_ne (hk : k < f.length) {i : Nat} (hi : i ≠ k) : byteAt (f.set k v) i = byteAt f i := by
  rw [byteAt_set f k i v hk, if_neg hi]

theorem le16_set_of_ne (hk : k < f.length) {i : Nat} (hi : i ≠ k) (hi' : i + 1 ≠ k) : le16 (f.set k v) i = le16 f i :=
  le16_eq_iff.2 ⟨byteAt_set_of_ne hk hi, byteAt_set_of_ne hk hi'⟩

/-- A 16-bit field shows a change of either of its bytes. -/
theorem le16_set_ne (hk : k < f.length) (hv : v ≠ byteAt f k) {i : Nat} (hi : k = i ∨ k = i + 1) :
    le16 (f.set k v) i ≠ le16 f i := by
  intro h
  obtain ⟨h0, h1⟩ := le16_eq_iff.1 h
  rw [← byteAt_set_self (v := v) hk] at hv
  rcases hi with rfl | rfl
  · exact hv h0
  · exact hv h1

theorem marked_set (hk : k < f.length) (hmark : Marked f) (hlo : 2 ≤ k) (hhi : k < f.length - 2) :
    Marked (f.set k v) := by
  rw [Marked, List.length_set, byteAt_set_of_ne hk (by omega), byteAt_set_of_ne hk (by omega),
    byteAt_set_of_ne hk (by omega), byteAt_set_of_ne hk (by omega)]
  exact hmark

theorem not_marked_set (hk : k < f.length) (hmark : Marked f) (hv : v ≠ byteAt f k) (hpos : k < 2 ∨ f.length - 2 ≤ k) :
    ¬ Marked (f.set k v) := by
  intro hset
  obtain ⟨h0, h1, h2, h3⟩ := hmark
  obtain ⟨h0', h1', h2', h3'⟩ := hset
  rw [List.length_set] at h2' h3'
  rw [← byteAt_set_self (v := v) hk] at hv
  obtain rfl | rfl | rfl | rfl : k = 0 ∨ k = 1 ∨ k = f.length - 2 ∨ k = f.length - 1 := by omega
  · exact hv (h0'.trans h0.symm)
  · exact hv (h1'.trans h1.symm)
  · exact hv (h2'.trans h2.symm)
  · exact hv (h3'.trans h3.symm)

/-- O8 in the terms of a replaced byte. -/
theorem crc16_set_ne (hk : k < f.length) (hv : v ≠ byteAt f k) : crc16 (f.set k v) ≠ crc16 f := by
  have hbyte : byteAt f k = f[k] := byteAt_of_getElem? f k _ (List.getElem?_eq_getElem hk)
  have hf : f = f.take k ++ byteAt f k :: f.drop (k + 1) := by
    rw [hbyte, List.cons_getElem_drop_succ, List.take_append_drop]
  have hset : f.set k v = f.take k ++ v :: f.drop (k + 1) := List.set_eq_take_append_cons_drop.trans (if_pos hk)
  intro h
  rw [hset] at h
  exact crc16SeesOneChangedByte _ _ _ _ hv (h.trans (congrArg crc16 hf))

/-- Of the bytes the CRC covers and the CRC field after them, one replaced byte changes exactly one. -/
theorem crc_field_set_ne {m : Nat} (hk : k < m + 2) (hm : m + 2 ≤ f.length) (hv : v ≠ byteAt f k)
    (hcrc : le16 f m = crc16 (slice f 0 m)) : le16 (f.set k v) m ≠ crc16 (slice (f.set k v) 0 m) := by
  have hcovered : slice (f.set k v) 0 m = (slice f 0 m).set k v := List.take_set
  have hsize : (slice f 0 m).length = m := by rw [slice_length]; omega
  rw [hcovered]
  rcases Nat.lt_or_ge k m with hbody | hfield
  · have hread : byteAt (slice f 0 m) k = byteAt f k := Machine.byteAt_take f hbody (by omega)
    rw [le16_set_of_ne (by omega) (by omega) (by omega), hcrc]
    exact (crc16_set_ne (hsize.symm ▸ hbody) (hread.symm ▸ hv)).symm
  · have hsame : (slice f 0 m).set k v = slice f 0 m := List.set_eq_of_length_le (hsize.trans_le hfield)
    rw [hsame, ← hcrc]
    exact le16_set_ne (by omega) hv (by omega)

/-- One byte of an accepted frame replaced: the first check of R140 that reads the byte fails, and the CRC's reads all
those that no check before it has caught. -/
theorem decodeFrame_set {fr : Frame} (h : decodeFrame f = .frame fr) (hk : k < f.length) (hv : v ≠ byteAt f k) :
    decodeFrame (f.set k v) =
      .bad (if k < 2 ∨ f.length - 2 ≤ k then .markersInvalid
        else if k = 10 ∨ k = 11 then .lengthMismatch else .crcMismatch) := by
  obtain ⟨hmark, hlen, hcrc⟩ := checks_of_decodeFrame h
  have hmin : 16 ≤ (f.set k v).length := by rw [List.length_set]; omega
  split_ifs with hmarker hlength
  · exact decodeFrame_of_not_marked hmin (not_marked_set hk hmark hv hmarker)
  · have hother : (le16 (f.set k v) 10).toNat ≠ (le16 f 10).toNat := fun heq =>
      le16_set_ne hk hv hlength (BitVec.eq_of_toNat_eq heq)
    rw [decodeFrame_of_marked hmin (marked_set hk hmark (by omega) (by omega)), List.length_set, if_pos (by omega)]
  · have hsame : le16 (f.set k v) 10 = le16 f 10 := le16_set_of_ne hk (by omega) (by omega)
    rw [decodeFrame_of_marked hmin (marked_set hk hmark (by omega) (by omega)), hsame, List.length_set,
      if_neg (not_not.2 hlen), if_pos (crc_field_set_ne (by omega) (by omega) hv hcrc)]

end

/-- Settles O7: an encoded frame is accepted, so each replaced byte fails the check that reads it. -/
theorem oneCorruptedByteNeverDecodes : Obligations.OneCorruptedByteNeverDecodes := by
  intro cmd seq off p k v hp hk hv
  have hframe := decodeFrame_encodeFrame cmd seq off (p := p) (by omega)
  have hset := decodeFrame_set hframe (by rwa [encodeFrame_length]) hv
  rwa [encodeFrame_length, show 16 + p.length - 2 = 14 + p.length by omega] at hset

end Sys2Proof

namespace Sys2Proof.Machine

/-! ### A candidate frame that does not decode (R141) -/

theorem transition_of_exec {s : State} (hrst : s.env.rst = false) (hphase : s.eng.phase = .exec)
    (hcont : s.eng.cont = none) : s.transition = s.startFrame := by
  simp only [State.transition, hrst, hphase, hcont, Bool.false_eq_true, if_false]

/-- Settles O20: the first step of EXEC drops such a frame, with the reason of its error. -/
theorem undecodableFrameIsDropped : Obligations.UndecodableFrameIsDropped := by
  intro s e hrst hphase hcont hbad
  have hdrop : s.transition = .next (s.drop e.reason) := by
    rw [transition_of_exec hrst hphase hcont, State.startFrame, hbad]
  rw [step_of_transition hdrop]
  cases e <;> rfl

end Sys2Proof.Machine
end

section
/-! PROOFS. The framer (spec/42_framer.md): where the first marker stands (R161), the scan as the loop of R162, its fuel and
its capacity (R166, R167). -/

namespace Sys2Proof.Machine

/-! ### Where the first marker stands (R161) -/

/-- The marker AA 55 stands at position `i`. -/
abbrev MarkerAt (b : List Byte) (i : Nat) : Prop := byteAt b i = 0xAA#8 ∧ byteAt b (i + 1) = 0x55#8

theorem byteAt_of_length_le {b : List Byte} {i : Nat} (h : b.length ≤ i) : byteAt b i = 0#8 := by
  simp [byteAt, h]

theorem MarkerAt.lt_length {b : List Byte} {i : Nat} (h : MarkerAt b i) : i + 1 < b.length := by
  by_contra hout
  have hzero := h.2
  rw [byteAt_of_length_le (Nat.not_lt.1 hout)] at hzero
  exact absurd hzero (by decide)

theorem not_candidate_nil : ¬ Candidate [] := fun h => absurd (MarkerAt.lt_length h.1) (by simp)

theorem head?_of_startsWithMarker {b : List Byte} (h : StartsWithMarker b) : b.head? = some 0xAA#8 := by
  match b, h with
  | [], h => exact absurd (MarkerAt.lt_length h) (by simp)
  | x :: r, ⟨hx, _⟩ => exact congrArg some hx

theorem byteAt_zero_of_head? {b : List Byte} {x : Byte} (h : b.head? = some x) : byteAt b 0 = x :=
  byteAt_of_getElem? b 0 x (List.head?_eq_getElem?.symm.trans h)

theorem findMarker_cons (x : Byte) (b : List Byte) :
    findMarker (x :: b) = if StartsWithMarker (x :: b) then some 0 else (findMarker b).map (· + 1) := by
  cases b with
  | nil => rw [if_neg fun h => absurd (MarkerAt.lt_length h) (by simp)]; rfl
  | cons y r => rfl

theorem findMarker_eq_some_iff (b : List Byte) (p : Nat) :
    findMarker b = some p ↔ MarkerAt b p ∧ ∀ j < p, ¬ MarkerAt b j := by
  induction b generalizing p with
  | nil => exact ⟨nofun, fun h => absurd h.1.lt_length (by simp)⟩
  | cons x b ih =>
    rw [findMarker_cons]
    cases p with
    | zero =>
      split_ifs with hx
      · exact ⟨fun _ => ⟨hx, nofun⟩, fun _ => rfl⟩
      · exact ⟨fun h => by simp at h, fun h => absurd h.1 hx⟩
    | succ p =>
      rw [Nat.forall_lt_succ_left]
      split_ifs with hx
      · exact ⟨nofun, fun h => absurd hx h.2.1⟩
      · have hrest : (findMarker b).map (· + 1) = some (p + 1) ↔ findMarker b = some p := by simp
        rw [hrest, ih p]
        exact and_congr_right fun _ => (and_iff_right hx).symm

theorem findMarker_eq_none_iff (b : List Byte) : findMarker b = none ↔ ∀ j, ¬ MarkerAt b j := by
  induction b with
  | nil => exact ⟨fun _ _ h => absurd h.lt_length (by simp), fun _ => rfl⟩
  | cons x b ih =>
    rw [findMarker_cons, ← Nat.and_forall_add_one]
    split_ifs with hx
    · exact ⟨nofun, fun h => absurd hx h.1⟩
    · rw [Option.map_eq_none_iff, ih]
      exact (and_iff_right hx).symm

/-- Settles O12: a marker lies inside the buffer, so its position alone says where it is. -/
theorem findMarkerIsTheLeast : Obligations.FindMarkerIsTheLeast := by
  intro buf
  refine ⟨fun p => ?_, ?_⟩
  · rw [findMarker_eq_some_iff]
    exact ⟨fun ⟨h, hleast⟩ => ⟨h.lt_length, h.1, h.2, hleast⟩, fun ⟨_, h1, h2, hleast⟩ => ⟨⟨h1, h2⟩, hleast⟩⟩
  · rw [findMarker_eq_none_iff]
    exact ⟨fun h j _ => h j, fun h j hj => h j hj.lt_length hj⟩

/-- Bytes after a marker do not move it. -/
theorem findMarker_append_of_some {a : List Byte} {p : Nat} (b : List Byte) (h : findMarker a = some p) :
    findMarker (a ++ b) = some p := by
  rw [findMarker_eq_some_iff] at h ⊢
  obtain ⟨hp, hleast⟩ := h
  have hlt := hp.lt_length
  have hbyte : ∀ i < a.length, byteAt (a ++ b) i = byteAt a i := byteAt_append_left a b
  refine ⟨⟨(hbyte p (by omega)).trans hp.1, (hbyte _ hlt).trans hp.2⟩, fun j hj => ?_⟩
  rw [MarkerAt, hbyte j (by omega), hbyte (j + 1) (by omega)]
  exact hleast j hj

/-- Bytes without a marker are passed over, where no marker stands across their end. -/
theorem findMarker_append_of_none {a b : List Byte} (ha : findMarker a = none)
    (hend : a.getLast? ≠ some 0xAA#8 ∨ b.head? = some 0xAA#8) :
    findMarker (a ++ b) = (findMarker b).map (· + a.length) := by
  induction a with
  | nil => simp
  | cons x a ih =>
    rw [findMarker_cons] at ha
    split_ifs at ha with hx
    have hstart : ¬ StartsWithMarker (x :: (a ++ b)) := by
      cases a with
      | cons y r => exact hx
      | nil =>
        rintro ⟨hAA, h55⟩
        rcases hend with hlast | hhead
        · exact hlast (congrArg some hAA)
        · exact absurd ((byteAt_zero_of_head? hhead).symm.trans h55) (by decide)
    have hend' : a.getLast? ≠ some 0xAA#8 ∨ b.head? = some 0xAA#8 := by
      cases a with
      | nil => exact .inl nofun
      | cons y r => exact hend
    rw [List.cons_append, findMarker_cons, if_neg hstart, ih (Option.map_eq_none_iff.1 ha) hend', Option.map_map]
    rfl

/-! ### The fuel of the scan (R167) -/

theorem keepHalfMarker_length_le (b : List Byte) : (keepHalfMarker b).length ≤ b.length := by
  unfold keepHalfMarker
  split_ifs with hlast
  · exact List.length_pos_iff.2 fun hnil => by rw [hnil] at hlast; cases hlast
  · exact Nat.zero_le _

theorem scanLoop_eq_of_lt : ∀ (n m : Nat) (b : List Byte), b.length < n → b.length < m → scanLoop n b = scanLoop m b
  | 0, _, _, hn, _ => absurd hn (Nat.not_lt_zero _)
  | _, 0, _, _, hm => absurd hm (Nat.not_lt_zero _)
  | n + 1, m + 1, b, hn, hm => by
    cases hp : findMarker b with
    | none => rw [scanLoop_of_noMarker n hp, scanLoop_of_noMarker m hp]
    | some p =>
      have hin : p + 2 ≤ b.length := findMarker_lt b p hp
      have hshorter : ((b.drop p).drop 2).length + 2 ≤ b.length := by simp only [List.length_drop]; omega
      rw [scanLoop_of_marker n hp, scanLoop_of_marker m hp, scanLoop_eq_of_lt n m _ (by omega) (by omega)]

theorem scanLoop_eq_scan {n : Nat} {b : List Byte} (h : b.length < n) : scanLoop n b = scan b :=
  scanLoop_eq_of_lt _ _ b h (Nat.lt_succ_self _)

theorem scanLoop_length_le : ∀ (n : Nat) (b : List Byte),
    2 * (scanLoop n b).drops.length + (scanLoop n b).buf.length + ((scanLoop n b).frame.getD []).length ≤ b.length
  | 0, b => by simp [scanLoop]
  | n + 1, b => by
    cases hp : findMarker b with
    | none =>
      rw [scanLoop_of_noMarker n hp]
      simpa using keepHalfMarker_length_le b
    | some p =>
      have hin : p + 2 ≤ b.length := findMarker_lt b p hp
      rw [scanLoop_of_marker n hp]
      split_ifs with hheader hlong hshort
      · simp
      · have hrest := scanLoop_length_le n ((b.drop p).drop 2)
        simp only [List.length_drop, List.length_cons] at hrest ⊢
        omega
      · simp
      · simp only [List.length_nil, Option.getD_some, List.length_drop, List.length_take]
        omega

theorem scan_length_le (b : List Byte) :
    2 * (scan b).drops.length + (scan b).buf.length + ((scan b).frame.getD []).length ≤ b.length :=
  scanLoop_length_le _ b

/-- Settles O15: each turn that goes on removes two bytes. -/
theorem scanNeverStalls : Obligations.ScanNeverStalls :=
  fun buf => ⟨fun _ => scanLoop_eq_scan, scan_length_le buf⟩

/-! ### One turn of the scan (R162) -/

theorem scan_of_noMarker {b : List Byte} (h : findMarker b = none) : scan b = ⟨keepHalfMarker b, none, []⟩ :=
  scanLoop_of_noMarker _ h

theorem scan_of_marker {b : List Byte} {p : Nat} (h : findMarker b = some p) :
    scan b =
      if (b.drop p).length < 12 then ⟨b.drop p, none, []⟩
      else if 1024 < (le16 (b.drop p) 10).toNat then
        ⟨(scan ((b.drop p).drop 2)).buf, (scan ((b.drop p).drop 2)).frame,
          .frameInvalid :: (scan ((b.drop p).drop 2)).drops⟩
      else if (b.drop p).length < 16 + (le16 (b.drop p) 10).toNat then ⟨b.drop p, none, []⟩
      else ⟨(b.drop p).drop (16 + (le16 (b.drop p) 10).toNat), some ((b.drop p).take (16 + (le16 (b.drop p) 10).toNat)),
        []⟩ := by
  have hin : p + 2 ≤ b.length := findMarker_lt b p h
  rw [scan, scanLoop_of_marker _ h, scanLoop_eq_scan (by simp only [List.length_drop]; omega)]

/-- Settles O13: the turns after a false marker are a scan of their own, as the fuel never shows. -/
theorem scanIsTheLoop : Obligations.ScanIsTheLoop := by
  intro buf
  cases h : findMarker buf with
  | none => exact scan_of_noMarker h
  | some p =>
    have hsum : 12 + (le16 (buf.drop p) 10).toNat + 4 = 16 + (le16 (buf.drop p) 10).toNat := by omega
    simp only [hsum]
    exact scan_of_marker h

/-- The bytes before the first marker play no part. -/
theorem scan_drop_of_marker {b : List Byte} {p : Nat} (h : findMarker b = some p) : scan (b.drop p) = scan b := by
  have hin : p + 2 ≤ b.length := findMarker_lt b p h
  have hstart : findMarker (b.drop p) = some 0 :=
    findMarker_of_startsWithMarker (by rw [List.length_drop]; omega) (startsWithMarker_drop_of_findMarker b p h)
  rw [scan_of_marker h, scan_of_marker hstart, List.drop_zero]

/-- Bytes without a marker play no part, where none can stand across their end. -/
theorem scan_append_of_noMarker {a b : List Byte} (ha : findMarker a = none)
    (hend : a.getLast? ≠ some 0xAA#8 ∨ b.head? = some 0xAA#8) : scan (a ++ b) = scan b := by
  have hfind := findMarker_append_of_none ha hend
  cases hb : findMarker b with
  | none =>
    have hkeep : keepHalfMarker (a ++ b) = keepHalfMarker b := by
      cases b with
      | nil =>
        have hlast : a.getLast? ≠ some 0xAA#8 := hend.resolve_right nofun
        rw [List.append_nil]
        exact if_neg hlast
      | cons y r => simp [keepHalfMarker, List.getLast?_append]
    rw [hb] at hfind
    rw [scan_of_noMarker hfind, scan_of_noMarker hb, hkeep]
  | some p =>
    rw [hb, Option.map_some, Nat.add_comm] at hfind
    rw [← scan_drop_of_marker hfind, ← scan_drop_of_marker hb, List.drop_length_add_append]

/-! ### The scan of a buffer that starts with a marker -/

section
variable {b : List Byte} (hmark : StartsWithMarker b)
include hmark

theorem findMarker_eq_zero : findMarker b = some 0 := findMarker_of_startsWithMarker (MarkerAt.lt_length hmark) hmark

/-- A rest, a false marker, or a frame and what follows it. -/
theorem startsWithMarker_cases :
    FramerRest b ∨ (12 ≤ b.length ∧ 1024 < (le16 b 10).toNat) ∨
      ((le16 b 10).toNat ≤ 1024 ∧ 16 + (le16 b 10).toNat ≤ b.length) := by
  have htwo : 2 ≤ b.length := MarkerAt.lt_length hmark
  by_cases hinc : b.length < 12 ∨ ((le16 b 10).toNat ≤ 1024 ∧ b.length < 16 + (le16 b 10).toNat)
  · exact .inl (.inr (.inr ⟨htwo, hmark, hinc⟩))
  · omega

theorem scan_of_falseMarker (hheader : 12 ≤ b.length) (hlong : 1024 < (le16 b 10).toNat) :
    scan b = ⟨(scan (b.drop 2)).buf, (scan (b.drop 2)).frame, .frameInvalid :: (scan (b.drop 2)).drops⟩ := by
  rw [scan_of_marker (findMarker_eq_zero hmark), List.drop_zero, if_neg (Nat.not_lt.2 hheader), if_pos hlong]

theorem scan_of_frame (hmax : (le16 b 10).toNat ≤ 1024) (hlen : 16 + (le16 b 10).toNat ≤ b.length) :
    scan b = ⟨b.drop (16 + (le16 b 10).toNat), some (b.take (16 + (le16 b 10).toNat)), []⟩ := by
  rw [scan_of_marker (findMarker_eq_zero hmark), List.drop_zero, if_neg (by omega), if_neg (Nat.not_lt.2 hmax),
    if_neg (Nat.not_lt.2 hlen)]

end

/-- A scan leaves a rest of the shapes of R166 as it is. -/
theorem scan_of_framerRest {b : List Byte} (h : FramerRest b) : scan b = ⟨b, none, []⟩ := by
  rcases h with rfl | rfl | ⟨-, hmark, hinc⟩
  · rfl
  · rfl
  · rw [scan_of_marker (findMarker_eq_zero hmark), List.drop_zero]
    split_ifs with hheader hlong hshort
    · rfl
    · omega
    · rfl
    · omega

theorem scan_of_candidate {f : List Byte} (h : Candidate f) : scan f = ⟨[], some f, []⟩ := by
  obtain ⟨hmark, hmax, hlen⟩ := h
  rw [scan_of_frame hmark hmax hlen.ge, ← hlen, List.drop_length, List.take_length]

/-- A frame without its last byte is a rest. -/
theorem framerRest_of_candidate_append {g : List Byte} {c : Byte} (h : Candidate (g ++ [c])) :
    StartsWithMarker g ∧ FramerRest g := by
  obtain ⟨⟨hmark1, hmark2⟩, hmax, hlen⟩ := h
  have hsize : 15 + (le16 (g ++ [c]) 10).toNat = g.length := by
    rw [List.length_append, List.length_singleton] at hlen
    omega
  have hfield : le16 (g ++ [c]) 10 = le16 g 10 := le16_append_left g [c] 10 (by omega)
  rw [byteAt_append_left g [c] _ (by omega)] at hmark1 hmark2
  rw [hfield] at hmax hsize
  exact ⟨⟨hmark1, hmark2⟩, .inr (.inr ⟨by omega, ⟨hmark1, hmark2⟩, .inr ⟨hmax, by omega⟩⟩)⟩

/-! ### The capacity (R166) -/

theorem FramerRest.length_le {b : List Byte} (h : FramerRest b) : b.length ≤ 1039 := by
  rcases h with rfl | rfl | ⟨-, -, hinc⟩
  · simp
  · simp
  · omega

/-- Settles O14: a byte on a rest leaves a rest, or completes the whole buffer to one frame. -/
theorem framerCapacity : Obligations.FramerCapacity := by
  refine ⟨.inl rfl, fun buf b hrest => ⟨hrest.length_le, ?_, ?_⟩⟩
  · rw [List.length_append, List.length_singleton]
    exact Nat.succ_le_succ hrest.length_le
  · rcases scan_append_cases b hrest with ⟨hnone, hbuf⟩ | ⟨hsome, hbuf, hcand⟩
    · exact ⟨fun _ => hbuf, fun f hf => absurd (hnone.symm.trans hf) nofun⟩
    · refine ⟨fun hnone => absurd (hsome.symm.trans hnone) nofun, fun f hf => ?_⟩
      cases hsome.symm.trans hf
      exact ⟨hbuf, rfl, hcand⟩

end Sys2Proof.Machine
end

section
/-! PROOFS. The chunked form of the framer (spec/42_framer.md R168): a scan made early loses nothing, so feeding and draining
a chunk is scanning after each of its bytes; and noise before a frame (R169). -/

namespace Sys2Proof.Machine

/-! ### Results one after the other -/

/-- A run of the framer with the frames and the drops of what came before it. -/
def FeedResult.after (q : FeedResult) (frames : List (List Byte)) (drops : List ErrorCode) : FeedResult :=
  ⟨q.buf, frames ++ q.frames, drops ++ q.drops⟩

@[simp] theorem FeedResult.after_buf (q : FeedResult) (frames : List (List Byte)) (drops : List ErrorCode) :
    (q.after frames drops).buf = q.buf := rfl

theorem FeedResult.after_after (q : FeedResult) (fs fs' : List (List Byte)) (ds ds' : List ErrorCode) :
    (q.after fs ds).after fs' ds' = q.after (fs' ++ fs) (ds' ++ ds) := by
  simp only [FeedResult.after, List.append_assoc]

theorem feedBytes_cons (buf : List Byte) (b : Byte) (bs : List Byte) :
    feedBytes buf (b :: bs) =
      (feedBytes (scan (buf ++ [b])).buf bs).after (scan (buf ++ [b])).frame.toList (scan (buf ++ [b])).drops := rfl

theorem feedBytes_append (buf as bs : List Byte) :
    feedBytes buf (as ++ bs) =
      (feedBytes (feedBytes buf as).buf bs).after (feedBytes buf as).frames (feedBytes buf as).drops := by
  induction as generalizing buf with
  | nil => rfl
  | cons a as ih => rw [List.cons_append, feedBytes_cons, feedBytes_cons, ih, FeedResult.after_after]; rfl

theorem framerRest_feedBytes {buf : List Byte} (h : FramerRest buf) (bs : List Byte) :
    FramerRest (feedBytes buf bs).buf := by
  induction bs generalizing buf with
  | nil => exact h
  | cons b bs ih =>
    rw [feedBytes_cons, FeedResult.after_buf]
    rcases scan_append_cases b h with ⟨-, hrest⟩ | ⟨-, hnil, -⟩
    · exact ih hrest
    · exact ih (.inl hnil)

/-! ### Extracting until none is left -/

/-- `tryExtractFrame` until it returns `None`, with the fuel `feedChunk` gives it. -/
def drain (b : List Byte) : FeedResult := drainLoop (b.length + 1) b

theorem feedChunk_eq_drain (buf chunk : List Byte) : feedChunk buf chunk = drain (buf ++ chunk) := rfl

theorem scan_buf_length_lt {b f : List Byte} (h : (scan b).frame = some f) : (scan b).buf.length < b.length := by
  have hbound := scan_length_le b
  obtain ⟨-, -, hlen⟩ : Candidate f := candidate_scanLoop _ b f h
  rw [h, Option.getD_some] at hbound
  omega

theorem drainLoop_succ_of_none (n : Nat) {b : List Byte} (h : (scan b).frame = none) :
    drainLoop (n + 1) b = ⟨(scan b).buf, [], (scan b).drops⟩ := by
  simp only [drainLoop, h]

theorem drainLoop_succ_of_some (n : Nat) {b f : List Byte} (h : (scan b).frame = some f) :
    drainLoop (n + 1) b = (drainLoop n (scan b).buf).after [f] (scan b).drops := by
  simp only [drainLoop, h]
  rfl

theorem drainLoop_eq_of_lt : ∀ (n m : Nat) (b : List Byte), b.length < n → b.length < m → drainLoop n b = drainLoop m b
  | 0, _, _, hn, _ => absurd hn (Nat.not_lt_zero _)
  | _, 0, _, _, hm => absurd hm (Nat.not_lt_zero _)
  | n + 1, m + 1, b, hn, hm => by
    cases hf : (scan b).frame with
    | none => rw [drainLoop_succ_of_none n hf, drainLoop_succ_of_none m hf]
    | some f =>
      have hshorter := scan_buf_length_lt hf
      rw [drainLoop_succ_of_some n hf, drainLoop_succ_of_some m hf, drainLoop_eq_of_lt n m _ (by omega) (by omega)]

theorem drain_of_none {b : List Byte} (h : (scan b).frame = none) : drain b = ⟨(scan b).buf, [], (scan b).drops⟩ :=
  drainLoop_succ_of_none _ h

theorem drain_of_some {b f : List Byte} (h : (scan b).frame = some f) :
    drain b = (drain (scan b).buf).after [f] (scan b).drops := by
  rw [drain, drainLoop_succ_of_some _ h, drain,
    drainLoop_eq_of_lt _ ((scan b).buf.length + 1) _ (scan_buf_length_lt h) (Nat.lt_succ_self _)]

/-- Two buffers whose scans differ in the drops that come first drain alike, with those drops. -/
theorem drain_of_scan_eq {a b : List Byte} {ds : List ErrorCode}
    (h : scan a = ⟨(scan b).buf, (scan b).frame, ds ++ (scan b).drops⟩) : drain a = (drain b).after [] ds := by
  cases hf : (scan b).frame with
  | none =>
    have ha : (scan a).frame = none := by rw [h, hf]
    rw [drain_of_none ha, drain_of_none hf, h]
    rfl
  | some f =>
    have ha : (scan a).frame = some f := by rw [h, hf]
    rw [drain_of_some ha, drain_of_some hf, h, FeedResult.after_after]
    rfl

theorem drain_congr {a b : List Byte} (h : scan a = scan b) : drain a = drain b := drain_of_scan_eq (ds := []) h

theorem drain_of_framerRest {b : List Byte} (h : FramerRest b) : drain b = ⟨b, [], []⟩ := by
  have hscan := scan_of_framerRest h
  rw [drain_of_none (by rw [hscan]), hscan]

/-! ### A scan made early (R168) -/

/-- What a marker-less buffer keeps scans, with any bytes after it, as the whole buffer does (R163). -/
theorem scan_keepHalfMarker_append {a : List Byte} (b : List Byte) (ha : findMarker a = none) :
    scan (keepHalfMarker a ++ b) = scan (a ++ b) := by
  unfold keepHalfMarker
  split_ifs with hlast
  · obtain ⟨d, rfl⟩ : ∃ d, a = d ++ [0xAA#8] := List.getLast?_eq_some_iff.1 hlast
    have hd : findMarker d = none := by
      cases hd : findMarker d with
      | none => rfl
      | some p => exact (findMarker_append_of_some _ hd).symm.trans ha
    rw [List.append_assoc]
    exact (scan_append_of_noMarker hd (.inr rfl)).symm
  · exact (scan_append_of_noMarker ha (.inl hlast)).symm

/-- A scan before more bytes come loses nothing: what it leaves drains, with those bytes, to the rest of what the whole
drains to. -/
def EarlyScanLosesNothing (a : List Byte) : Prop :=
  ∀ b, drain (a ++ b) = (drain ((scan a).buf ++ b)).after (scan a).frame.toList (scan a).drops

theorem earlyScanLosesNothing_of_startsWithMarker {a : List Byte} (hmark : StartsWithMarker a)
    (hshorter : EarlyScanLosesNothing (a.drop 2)) : EarlyScanLosesNothing a := by
  intro b
  have hlen : (a ++ b).length = a.length + b.length := List.length_append
  have htwo : 2 ≤ a.length := MarkerAt.lt_length hmark
  have hmark' : StartsWithMarker (a ++ b) := startsWithMarker_append b htwo hmark
  have hfield : 12 ≤ a.length → le16 (a ++ b) 10 = le16 a 10 := le16_append_left a b 10
  rcases startsWithMarker_cases hmark with hrest | ⟨hheader, hlong⟩ | ⟨hmax, hframe⟩
  · rw [scan_of_framerRest hrest]
    rfl
  · have hdrop : (a ++ b).drop 2 = a.drop 2 ++ b := List.drop_append_of_le_length htwo
    have hscan := scan_of_falseMarker hmark' (by omega) (by rwa [hfield hheader])
    rw [hdrop] at hscan
    rw [drain_of_scan_eq (ds := [.frameInvalid]) hscan, hshorter b, FeedResult.after_after,
      scan_of_falseMarker hmark hheader hlong]
    rfl
  · have hscan := scan_of_frame hmark' (by rwa [hfield (by omega)]) (by rw [hfield (by omega)]; omega)
    rw [hfield (by omega), List.drop_append_of_le_length hframe, List.take_append_of_le_length hframe] at hscan
    rw [drain_of_some (by rw [hscan]), hscan, scan_of_frame hmark hmax hframe]
    rfl

theorem earlyScanLosesNothing (a : List Byte) : EarlyScanLosesNothing a := by
  induction hn : a.length using Nat.strong_induction_on generalizing a with
  | _ n ih =>
    intro b
    cases hp : findMarker a with
    | none =>
      rw [← drain_congr (scan_keepHalfMarker_append b hp), scan_of_noMarker hp]
      rfl
    | some p =>
      have hin : p + 2 ≤ a.length := findMarker_lt a p hp
      have hdrop : (a ++ b).drop p = a.drop p ++ b := List.drop_append_of_le_length (by omega)
      have hscan : scan (a.drop p ++ b) = scan (a ++ b) := by
        rw [← hdrop, scan_drop_of_marker (findMarker_append_of_some b hp)]
      rw [← drain_congr hscan, ← scan_drop_of_marker hp]
      exact earlyScanLosesNothing_of_startsWithMarker (startsWithMarker_drop_of_findMarker a p hp)
        (ih _ (by simp only [List.length_drop]; omega) _ rfl) b

/-! ### Chunks and bytes (R168) -/

theorem drain_append_eq_feedBytes {buf : List Byte} (h : FramerRest buf) (bs : List Byte) :
    drain (buf ++ bs) = feedBytes buf bs := by
  induction bs generalizing buf with
  | nil => rw [List.append_nil]; exact drain_of_framerRest h
  | cons b bs ih =>
    have hrest : FramerRest (scan (buf ++ [b])).buf := framerRest_feedBytes h [b]
    rw [List.append_cons, earlyScanLosesNothing, ih hrest, feedBytes_cons]

/-- Settles O16: draining a chunk is scanning after each of its bytes; the induction is over the chunks. -/
theorem chunksFrameLikeBytes : Obligations.ChunksFrameLikeBytes := by
  intro buf chunks hrest
  induction chunks generalizing buf with
  | nil => rfl
  | cons c cs ih =>
    have hchunk : feedChunk buf c = feedBytes buf c := by
      rw [feedChunk_eq_drain, drain_append_eq_feedBytes hrest]
    rw [List.flatten_cons, feedBytes_append, ← hchunk, ← ih _ (hchunk ▸ framerRest_feedBytes hrest c)]
    rfl

/-! ### Noise before a frame (R163, R169) -/

theorem feedBytes_noise {buf noise z : List Byte} (hbuf : buf = [] ∨ buf = [0xAA#8])
    (hnoise : findMarker (buf ++ noise) = none) (hz : z.head? = some 0xAA#8) :
    feedBytes buf (noise ++ z) = drain z := by
  have hrest : FramerRest buf := hbuf.imp id .inl
  rw [← drain_append_eq_feedBytes hrest, ← List.append_assoc]
  exact drain_congr (scan_append_of_noMarker hnoise (.inr hz))

theorem drain_of_candidate {f : List Byte} (h : Candidate f) : drain f = ⟨[], [f], []⟩ := by
  have hscan := scan_of_candidate h
  rw [drain_of_some (by rw [hscan]), hscan]
  rfl

theorem candidate_encodeFrame (cmd : Byte) (seq : U16) (off : U32) {p : List Byte} (hp : p.length ≤ 1024) :
    Candidate (encodeFrame cmd seq off p) := by
  obtain ⟨hlen, hmark1, hmark2, -, -, -, -, hfield, -⟩ := encodedFieldPositions cmd seq off p hp
  exact ⟨⟨hmark1, hmark2⟩, by rwa [hfield], by rw [hfield, hlen]⟩

/-- Settles O17: no marker stands in the noise or across its end, so the scan is that of the frame alone. -/
theorem noiseThenFrame : Obligations.NoiseThenFrame := by
  intro buf noise cmd seq off p hp hbuf hnoise
  have hcand := candidate_encodeFrame cmd seq off hp
  rw [feedBytes_noise hbuf hnoise (head?_of_startsWithMarker hcand.1), drain_of_candidate hcand]

end Sys2Proof.Machine
end

section
/-! PROOFS. Receiving in SCAN (spec/42_framer.md R160, 45_driver.md R280): one byte, a run of bytes, and the bytes of an
instruction up to the step that runs it (R281, R288). -/

namespace Sys2Proof.Machine

/-! ### One byte received (R280) -/

theorem step_of_offered {s : State} {b : Byte} {rest : List Byte} (hrst : s.env.rst = false)
    (hphase : s.eng.phase = .scan) (hrx : s.env.rx = b :: rest) :
    step s = .next (State.rxStep { s with env := { s.env with rx := rest } } b).advance := by
  have htransition : s.transition = .next s.scanStep := by
    simp only [State.transition, hrst, hphase, Bool.false_eq_true, if_false]
  have hscan : s.scanStep = State.rxStep { s with env := { s.env with rx := rest } } b := by rw [State.scanStep, hrx]
  rw [step_of_transition htransition, hscan]

/-- Settles O22: the two ways a receive step can end. -/
theorem receiveStep : Obligations.ReceiveStep := by
  intro s b rest hrst hphase hrx
  have hstep := step_of_offered hrst hphase hrx
  rcases State.rxStep_cases { s with env := { s.env with rx := rest } } b with ⟨hnone, h⟩ | ⟨f, hsome, h⟩
  · exact ⟨fun _ => hstep.trans (by rw [h]), fun f hf => absurd (hnone.symm.trans hf) nofun⟩
  · refine ⟨fun hnone => absurd (hsome.symm.trans hnone) nofun, fun f' hf' => ?_⟩
    cases hsome.symm.trans hf'
    exact hstep.trans (by rw [h])

/-! ### Bytes received one by one -/

/-- `s` after receiving bytes that complete no frame: `r` is what the framer makes of them, `rest` is still offered. -/
def State.received (s : State) (r : FeedResult) (rest : List Byte) : State :=
  { s with
    fbuf := r.buf
    env := { s.env with rx := rest }
    out := { s.out with drops := s.out.drops ++ r.drops } }

/-- `s` after the last byte of the frame `f`, with nothing dropped. -/
def State.extracted (s : State) (f rest : List Byte) : State :=
  { s with
    fbuf := []
    eng := { s.eng with phase := .exec, cur := f, cont := none }
    env := { s.env with rx := rest } }

section
variable {s : State} {b : Byte} {rest : List Byte} (hquiet : s.Undisturbed) (hphase : s.eng.phase = .scan)
  (hrx : s.env.rx = b :: rest)
include hquiet hphase hrx

theorem step_of_noFrame (hnone : (scan (s.fbuf ++ [b])).frame = none) :
    step s = .next (s.received (feedBytes s.fbuf [b]) rest) := by
  rw [(receiveStep s b rest hquiet.1 hphase hrx).1 hnone, State.advance_of_nil _ (by exact hquiet.2), feedBytes_cons]
  simp only [State.received, FeedResult.after, feedBytes, List.append_nil]

theorem step_of_frame {f : List Byte} (hscan : scan (s.fbuf ++ [b]) = ⟨[], some f, []⟩) :
    step s = .next (s.extracted f rest) := by
  rw [(receiveStep s b rest hquiet.1 hphase hrx).2 f (by rw [hscan]), State.advance_of_nil _ (by exact hquiet.2), hscan]
  simp only [State.extracted, List.append_nil]

end

theorem run_succ_of_step {s t : State} (n : Nat) (h : step s = .next t) : run (n + 1) s = run n t := by
  rw [run, h]

/-- Bytes that complete no frame are received in as many steps (R160, R288). -/
theorem run_receive (n : Nat) (bs rest : List Byte) (s : State) (hquiet : s.Undisturbed) (hphase : s.eng.phase = .scan)
    (hrx : s.env.rx = bs ++ rest) (hframes : (feedBytes s.fbuf bs).frames = []) :
    run (bs.length + n) s = run n (s.received (feedBytes s.fbuf bs) rest) := by
  induction bs generalizing s with
  | nil =>
    have hsame : s.received (feedBytes s.fbuf []) rest = s := by
      rw [List.nil_append] at hrx
      simp only [State.received, feedBytes, List.append_nil, ← hrx]
    rw [hsame, List.length_nil, Nat.zero_add]
  | cons b bs ih =>
    rw [List.cons_append] at hrx
    rw [feedBytes_cons] at hframes ⊢
    obtain ⟨hfirst, hothers⟩ := List.append_eq_nil_iff.1 hframes
    have hnone : (scan (s.fbuf ++ [b])).frame = none := Option.toList_eq_nil_iff.1 hfirst
    have hstep := step_of_noFrame hquiet hphase hrx hnone
    rw [List.length_cons, Nat.add_right_comm, run_succ_of_step _ hstep,
      ih (s.received (feedBytes s.fbuf [b]) (bs ++ rest)) hquiet hphase rfl hothers]
    simp only [State.received, feedBytes, FeedResult.after, List.append_nil, List.append_assoc]

/-! ### The bytes of an instruction (R169, R281, R288) -/

theorem step_of_decoded {s : State} {i : Instr} (hquiet : s.Undisturbed) (hphase : s.eng.phase = .exec)
    (hcont : s.eng.cont = none) (hi : decode s.eng.cur = .instr i) : step s = exec i s := by
  have htransition : s.transition = exec i s := by
    rw [transition_of_exec hquiet.1 hphase hcont, State.startFrame, hi]
  cases h : exec i s with
  | next u =>
    have hlater : u.later = [] := (exec_ruleResult h).samePorts.later.trans hquiet.2
    rw [step_of_transition (htransition.trans h), State.advance_of_nil u hlater]
  | fault f => rw [step, driverStep, htransition, h]
  | refused r => rw [step, driverStep, htransition, h]

/-- A candidate frame offered to an engine at rest: all its bytes but the last are a rest of the framer, and the last
one completes it. -/
theorem run_candidate {s : State} {f rest : List Byte} (hf : Candidate f) (hquiet : s.Undisturbed)
    (hphase : s.eng.phase = .scan) (hbuf : s.fbuf = [] ∨ s.fbuf = [0xAA#8]) (hrx : s.env.rx = f ++ rest) :
    run f.length s = .next (s.extracted f rest) := by
  obtain ⟨g, c, rfl⟩ : ∃ g c, f = g ++ [c] :=
    (List.eq_nil_or_concat' f).resolve_left fun hnil => not_candidate_nil (hnil ▸ hf)
  obtain ⟨hmark, hrest⟩ := framerRest_of_candidate_append hf
  have hnoMarker : findMarker (s.fbuf ++ []) = none := by rcases hbuf with h | h <;> rw [h] <;> rfl
  have hfeed : feedBytes s.fbuf g = ⟨g, [], []⟩ :=
    (feedBytes_noise hbuf hnoMarker (head?_of_startsWithMarker hmark)).trans (drain_of_framerRest hrest)
  have hrun := run_receive 1 g (c :: rest) s hquiet hphase (by rw [hrx, List.append_assoc]; rfl) (by rw [hfeed])
  rw [hfeed] at hrun
  have hlast := step_of_frame (s := s.received ⟨g, [], []⟩ (c :: rest)) hquiet hphase rfl (scan_of_candidate hf)
  rw [List.length_append, List.length_singleton, hrun, run_succ_of_step 0 hlast]
  simp only [run, State.extracted, State.received, List.append_nil]

/-- Settles O19: the frame is received as a candidate, and decodes to its instruction. -/
theorem frameBytesRunTheInstruction : Obligations.FrameBytesRunTheInstruction := by
  intro s i rest hwf hquiet hphase hbuf hrx
  have hcand : Candidate (encode i) := candidate_encodeFrame _ _ _ (of_decide_eq_true hwf)
  exact ⟨run_candidate hcand hquiet hphase hbuf hrx, step_of_decoded hquiet rfl rfl (decodeEncodeRoundTrip i hwf)⟩

end Sys2Proof.Machine
end

section
/-! PROOFS. The commands (spec/43_commands.md R192 to R240): what each rule leaves at its first request or its end, and what
the answer to a request then does, whenever it comes. -/

namespace Sys2Proof.Machine

/-! ### A rule resumed (R282) -/

section
variable {w u : State} {q : BkReq} {k : Cont} {a : BkResp} {answers : List BkResp}

/-- The state a rule is resumed in: no request outstanding, `answers` still on `bk_resp`. -/
def State.resumed (w : State) (answers : List BkResp) : State :=
  { w with
    eng := { w.eng with cont := none }
    env := { w.env with bkResp := answers } }

theorem State.takeAnswer_eq_resumed (hbk : w.env.bkResp = a :: answers) : w.takeAnswer = w.resumed answers := by
  rw [State.takeAnswer, hbk]
  rfl

theorem step_of_resume (hrst : w.env.rst = false) (hphase : w.eng.phase = .exec) (hcont : w.eng.cont = some ⟨q, k⟩)
    (hbk : w.env.bkResp = a :: answers) (h : resume k a (w.resumed answers) = .next u) : step w = .next u.advance := by
  have htransition : w.transition = resume k a (w.resumed answers) := by
    simp only [State.transition, State.awaitAnswer, hrst, hphase, hcont, hbk, State.takeAnswer_eq_resumed hbk,
      Bool.false_eq_true, if_false]
  exact step_of_transition (htransition.trans h)

/-- The same with no part of the environment to come: the rule's own result. -/
theorem step_of_resume_undisturbed (hquiet : w.Undisturbed) (hphase : w.eng.phase = .exec)
    (hcont : w.eng.cont = some ⟨q, k⟩) (hbk : w.env.bkResp = a :: answers)
    (h : resume k a (w.resumed answers) = .next u) : step w = .next u := by
  have hlater : u.later = [] := (resume_samePorts h).later.trans hquiet.2
  rw [step_of_resume hquiet.1 hphase hcont hbk h, State.advance_of_nil u hlater]

end

/-! ### A command that fails (R240, R256) -/

/-- A failure with the handle open: the NACK is queued, then the handle's release is requested. -/
theorem State.fail_of_open (s : State) (seq : U16) (c : ErrorCode) (hopen : s.sess.handleOpen = true) :
    (s.nack seq c).abortInternal .finished =
      (s.nacked seq c (errorByte c)).waiting (.abortUpdate s.sess.handle) (.abortDone .finished) :=
  State.abortInternal_of_open _ _ hopen

/-- The internal abort's end, once the handle is released. -/
theorem State.endAbort_of_closed (s : State) (k : AfterAbort) (hclosed : s.sess.handleOpen = false) :
    s.endAbort k =
      { s with
        sess := s.sess.aborted
        image := []
        eng := { s.eng with phase := .tx, cont := none, txq := s.eng.txq ++ k.replies } } := by
  have hsess : { s.sess.clear with state := .idle } = s.sess.aborted := by
    rw [Session.clear, Session.aborted, hclosed]
  rw [State.endAbort_eq, hsess]

/-- Settles O44: the failed command's NACK was queued before the abort, whose end adds nothing to it. -/
theorem failureAbortEnds : Obligations.FailureAbortEnds := by
  intro w q answers hrst hphase hcont hbk
  rw [step_of_resume hrst hphase hcont hbk rfl, State.endAbort_of_closed _ _ rfl]
  simp only [AfterAbort.replies, List.append_nil]
  rfl

/-! ### START (R192 to R196) -/

theorem fitsPartition_iff (size : U32) (capacity : Option U32) :
    fitsPartition size capacity = true ↔ ∃ cap, capacity = some cap ∧ size ≤ cap := by
  cases capacity <;> simp [fitsPartition]

theorem fitsPartition_eq_false_iff (size : U32) (capacity : Option U32) :
    fitsPartition size capacity = false ↔ ∀ cap, capacity = some cap → cap < size := by
  cases capacity <;> simp [fitsPartition]

/-- START's checks passed: `BEGIN` is requested. -/
theorem exec_start_of_fits {s : State} {p : List Byte} (seq : U16) (off : U32)
    (hstate : s.sess.state = .idle ∨ s.sess.state = .error) (hlen : 76 ≤ p.length)
    (hfits : fitsPartition (le32 p 0) s.env.updCapacity = true) :
    exec (.start seq off p) s =
      .next (s.waiting (.beginUpdate (le32 p 0)) (.startBegin seq (le32 p 0) (le32 p 4))) := by
  simp only [exec, execStart, Config.startLen, startFirmwareSize, startFirmwareCRC32, hstate, hfits, not_true_eq_false,
    Nat.not_lt.2 hlen, Bool.true_eq_false, if_false, State.request_eq_waiting]

/-- Settles O29: the three checks in their order, each reached with the ones before it passed. -/
theorem startRefusals : Obligations.StartRefusals := by
  intro s seq off p
  refine ⟨fun hidle herror => ?_, fun hstate hshort => ?_, fun hstate hlen hcap => ?_⟩
  · simp only [exec, execStart, hidle, herror, or_self, not_false_eq_true, if_true]
    rfl
  · simp only [exec, execStart, Config.startLen, hstate, hshort, not_true_eq_false, if_false, if_true]
    rfl
  · have hunfit : fitsPartition (le32 p 0) s.env.updCapacity = false := (fitsPartition_eq_false_iff _ _).2 hcap
    simp only [exec, execStart, Config.startLen, startFirmwareSize, hstate, hunfit, Nat.not_lt.2 hlen,
      not_true_eq_false, if_false, if_true]
    rfl

/-- Settles O31: the two answers to `BEGIN` that R41 lists. -/
theorem beginAnswered : Obligations.BeginAnswered := by
  intro w q seq size fcrc a answers hrst hphase hcont hbk
  refine ⟨?_, ?_⟩
  · rintro h rfl
    exact step_of_resume hrst hphase hcont hbk rfl
  · rintro rfl
    exact step_of_resume hrst hphase hcont hbk rfl

/-- Settles O30: the checks pass, and the answer opens the session. -/
theorem startCompletes : Obligations.StartCompletes := by
  intro s seq off p cap h answers hquiet hstate hlen hcap hsize hbk
  have hfits : fitsPartition (le32 p 0) s.env.updCapacity = true := (fitsPartition_iff _ _).2 ⟨cap, hcap, hsize⟩
  exact ⟨exec_start_of_fits seq off hstate hlen hfits, step_of_resume_undisturbed hquiet rfl rfl hbk rfl⟩

/-! ### DATA (R200 to R204) -/

/-- `wrongState` is the NACK of a session whose state has become ERROR, from IDLE or ERROR (R236). -/
theorem State.wrongState_finish_eq (s : State) (seq : U16) :
    (s.wrongState seq).finish =
      State.nacked
        { s with sess := { s.sess with
          state := if s.sess.state = .idle ∨ s.sess.state = .error then .error else s.sess.state } }
        seq .invalidState 3#8 := by
  rw [State.wrongState_eq]
  rfl

/-- Settles O32: both commands check the state first. -/
theorem dataAndEndOutsideReceiving : Obligations.DataAndEndOutsideReceiving := by
  intro s seq off p hstate
  rw [← State.wrongState_finish_eq]
  simp only [exec, execData, execEnd, ne_eq, hstate, not_false_eq_true, if_true, and_self]

/-- Settles O33: the sequence is compared before the offset. -/
theorem dataOrderChecks : Obligations.DataOrderChecks := by
  intro s seq off p hstate
  refine ⟨fun hseq => ?_, fun hseq hoff => ?_⟩
  · simp only [exec, execData, ne_eq, hstate, hseq, not_true_eq_false, not_false_eq_true, if_false, if_true]
    rfl
  · simp only [exec, execData, ne_eq, hstate, hseq, hoff, not_true_eq_false, not_false_eq_true, if_false, if_true]
    rfl

/-- `cstr` stops at the first NUL, or at the end. -/
theorem cstr_eq_take (x : List Byte) :
    ∃ k, k ≤ x.length ∧ cstr x = x.take k ∧ (∀ j < k, byteAt x j ≠ 0#8) ∧ (k < x.length → byteAt x k = 0#8) := by
  induction x with
  | nil => exact ⟨0, le_rfl, rfl, fun j hj => absurd hj (Nat.not_lt_zero j), fun h => absurd h (Nat.lt_irrefl 0)⟩
  | cons b r ih =>
    by_cases hb : b = 0#8
    · exact ⟨0, Nat.zero_le _, if_pos hb, fun j hj => absurd hj (Nat.not_lt_zero j), fun _ => hb⟩
    · obtain ⟨k, hk, htake, hbefore, hat⟩ := ih
      refine ⟨k + 1, Nat.succ_le_succ hk, ?_, ?_, fun h => hat (Nat.lt_of_succ_lt_succ h)⟩
      · rw [cstr, if_neg hb, htake, List.take_succ_cons]
      · intro j hj
        cases j with
        | zero => exact hb
        | succ j => exact hbefore j (Nat.lt_of_succ_lt_succ hj)

theorem imageHeaderOK_iff (pr : Params) (last : Option Version) (p : List Byte) :
    imageHeaderOK pr last p = true ↔
      pr.imgHdrMin ≤ p.length ∧ ∀ v, last = some v → cstr (imageVersion pr p) ≠ cstr v.toList := by
  unfold imageHeaderOK
  by_cases hshort : p.length < pr.imgHdrMin
  · simp only [hshort, if_true, Bool.false_eq_true, Nat.not_le.2 hshort, false_and]
  · cases last <;> simp [hshort, Nat.not_lt.1 hshort]

/-- Settles O34: the length, then the version if one is recorded; `cstr` by induction on its bytes. -/
theorem headerCheckRule : Obligations.HeaderCheckRule := ⟨imageHeaderOK_iff, cstr_eq_take⟩

/-- Settles O35: the last of DATA's checks fails. -/
theorem headerRejectionAborts : Obligations.HeaderRejectionAborts := by
  intro s seq off p hstate hopen hseq hoff hunchecked hbad
  have hexec : exec (.data seq off p) s = .next ((s.nack seq .imageInvalid).abortInternal .finished) := by
    simp only [exec, execData, ne_eq, hstate, hseq, hoff, hunchecked, hbad, not_true_eq_false, Bool.false_eq_true,
      if_false]
  rw [hexec, State.fail_of_open s seq _ hopen]
  rfl

/-- Settles O38: the failure of R240, with the counters as they were. -/
theorem writeRefused : Obligations.WriteRefused := by
  intro w q seq p answers hrst hphase hcont hopen hbk
  rw [step_of_resume hrst hphase hcont hbk rfl, State.fail_of_open (w.resumed answers) seq _ hopen]
  rfl

theorem percent_le_hundred (received total : U32) : percent received total ≤ 100 := by
  unfold percent
  split_ifs
  · exact le_rfl
  · exact Nat.min_le_left _ _

/-- A percentage has its own tenth: the bound 10 of `decileOf` is not reached by more (R262). -/
theorem val_decileOf {pct : Nat} (h : pct ≤ 100) : (decileOf pct : Nat) = pct / 10 := by
  have hval : (decileOf pct : Nat) = min 10 (pct / 10) % 11 := rfl
  omega

/-- DATA's checks passed, or already passed by an earlier frame: the write is requested at the running offset. -/
theorem exec_data_of_checked {s : State} {seq : U16} {off : U32} {p : List Byte} (hstate : s.sess.state = .receiving)
    (hseq : seq = s.sess.expectedSequence) (hoff : off = s.sess.receivedBytes)
    (hheader : s.sess.imageHeaderChecked = true ∨ imageHeaderOK s.params s.env.lastInvalidVer p = true) :
    exec (.data seq off p) s =
      .next (State.issueWrite { s with sess := { s.sess with imageHeaderChecked := true } } seq p) := by
  rw [exec, execData, if_neg (not_not.2 hstate), if_neg (not_not.2 hseq), if_neg (not_not.2 hoff)]
  by_cases hchecked : s.sess.imageHeaderChecked = true
  · have hsame : { s with sess := { s.sess with imageHeaderChecked := true } } = s := by rw [← hchecked]
    rw [if_pos hchecked, hsame]
  · rw [if_neg hchecked, if_pos (hheader.resolve_left hchecked)]

/-- PROGRESS is due when the tenth of the percentage lies above the highest one reported (R262). -/
theorem lt_decileOf_percent_iff (d : Fin 11) (received total : U32) :
    d < decileOf (percent received total) ↔ (d : Nat) < percent received total / 10 := by
  rw [Fin.lt_def, val_decileOf (percent_le_hundred received total)]

theorem max_decileOf_percent (d : Fin 11) (received total : U32) :
    max d (decileOf (percent received total)) =
      if (d : Nat) < percent received total / 10 then decileOf (percent received total) else d := by
  simp only [max_def_lt, lt_decileOf_percent_iff]

theorem State.progressReply_eq (s : State) (seq : U16) :
    s.progressReply seq =
      if (s.sess.progressDecile : Nat) < percent s.sess.receivedBytes s.sess.totalBytes / 10 then
        encodeFrame 0x84#8 seq s.sess.receivedBytes
          (progressPayload s.sess.receivedBytes s.sess.totalBytes (percent s.sess.receivedBytes s.sess.totalBytes))
      else [] := by
  simp only [State.progressReply, lt_decileOf_percent_iff]

/-- Settles O36: the write is requested, and its answer is `acceptData`, whose two choices are whether a PROGRESS is
due. -/
theorem dataCompletes : Obligations.DataCompletes := by
  intro s seq off p answers hquiet hstate hseq hoff hheader hbk w n pct due
  have hexec : exec (.data seq off p) s = .next w := by
    rw [exec_data_of_checked hstate hseq hoff hheader, State.issueWrite, State.request_eq_waiting, ← hoff]
  refine ⟨hexec, step_of_resume_undisturbed hquiet rfl rfl hbk ?_⟩
  subst hseq hoff
  rw [resume, resumeData, State.acceptData_eq, max_decileOf_percent, State.progressReply_eq, ← List.append_assoc]
  simp only [due, decide_eq_true_eq]
  rfl

/-! ### END (R210 to R215) -/

/-- Settles O40: the size is compared before the CRC-32. -/
theorem endChecks : Obligations.EndChecks := by
  intro s seq off p hstate hopen
  refine ⟨fun hsize => ?_, fun hsize hverify hcrc => ?_⟩
  · rw [exec, execEnd, if_neg (not_not.2 hstate), if_pos hsize, State.fail_of_open s seq _ hopen]
    rfl
  · have hmismatch : crcMismatch s.params s.sess.imageCRC32 s.sess.firmwareCRC32 = true := by
      rw [crcMismatch, hverify, Bool.true_and]
      exact decide_eq_true hcrc
    rw [exec, execEnd, if_neg (not_not.2 hstate), if_neg (not_not.2 hsize), if_pos hmismatch,
      State.fail_of_open s seq _ hopen]
    rfl

/-- Settles O41: the checks pass, and the two answers are `OK`. -/
theorem endCompletes : Obligations.EndCompletes := by
  intro s seq off p answers hquiet hstate hsize hcrc hbk v w x
  have hmatch : crcMismatch s.params s.sess.imageCRC32 s.sess.firmwareCRC32 = false := by
    rcases hcrc with hverify | hcrc
    · rw [crcMismatch, hverify, Bool.false_and]
    · rw [crcMismatch, crc32Result, hcrc]
      simp
  refine ⟨?_, step_of_resume_undisturbed hquiet rfl rfl hbk rfl, step_of_resume_undisturbed hquiet rfl rfl rfl rfl⟩
  rw [exec, execEnd, if_neg (not_not.2 hstate), if_neg (not_not.2 hsize), hmatch]
  rfl

/-- Settles O42: `ERR` ends the rule with a NACK. -/
theorem endRefusedByTheBackend : Obligations.EndRefusedByTheBackend := by
  intro w q seq answers hrst hphase hbk
  exact ⟨fun hcont => step_of_resume hrst hphase hcont hbk rfl, fun hcont => step_of_resume hrst hphase hcont hbk rfl⟩

/-! ### ABORT, QUERY_STATUS, ROLLBACK_REQ and the codes the engine does not run (R220 to R235) -/

/-- Settles O43: with no open handle the session is cleared at once, otherwise when the handle has been released. -/
theorem abortCompletes : Obligations.AbortCompletes := by
  intro s seq off p cleared
  refine ⟨fun hclosed => ?_, fun hopen => ⟨?_, fun answers hquiet hbk => ?_⟩⟩
  · rw [exec, execAbort, State.abortInternal_of_closed _ _ hclosed, State.endAbort_of_closed _ _ hclosed]
    rfl
  · rw [exec, execAbort, State.abortInternal_of_open _ _ hopen]
  · refine step_of_resume_undisturbed hquiet rfl rfl hbk ?_
    rw [resume, resumeAbort, State.endAbort_of_closed _ _ rfl]
    rfl

/-- Settles O45: the rule is its one reply; the codes are the tables of R100 and R103. -/
theorem queryStatusCompletes : Obligations.QueryStatusCompletes := by
  refine ⟨fun s seq off p => rfl, ?_, ?_⟩
  · exact ⟨rfl, rfl, rfl, rfl, rfl, rfl, rfl, rfl⟩
  · exact ⟨rfl, rfl, rfl, rfl, rfl, rfl, rfl, rfl, rfl, rfl, rfl, rfl, rfl, rfl, rfl, rfl⟩

/-- Settles O46: the rule compares the running partition with the boot partition. -/
theorem rollbackReqCompletes : Obligations.RollbackReqCompletes := by
  intro s seq off p
  refine ⟨fun hne => ?_, fun heq => ?_⟩
  · rw [exec, execRollbackReq, if_pos hne]
    rfl
  · rw [exec, execRollbackReq, if_neg (not_not.2 heq)]
    rfl

/-- Settles O47: each of the seven rules is `unknownCommand`. -/
theorem deviceToHostCodesAreUnknown : Obligations.DeviceToHostCodesAreUnknown := by
  intro s seq off p t
  have hunknown : s.unknownCommand seq = t := s.unknownCommand_eq_nacked seq
  rw [← hunknown]
  exact ⟨rfl, rfl, rfl, rfl, rfl, rfl, rfl⟩

theorem decode_of_reserved {f : List Byte} {fr : Frame} (hframe : decodeFrame f = .frame fr)
    (hcode : opcodeOf fr.command = none) : decode f = .reserved fr := by
  rw [decode, hframe]
  simp only [hcode]

/-- Settles O21: a frame with such a code decodes as reserved, and its first step is the NACK. -/
theorem reservedCodeIsNacked : Obligations.ReservedCodeIsNacked := by
  intro s fr hrst hphase hcont hframe hcode
  have hdecode : decode s.eng.cur = .reserved fr := decode_of_reserved hframe ((opcodeOf_eq_none_iff _).2 hcode)
  have htransition : s.transition = .next (s.unknownCommand fr.sequence) := by
    rw [transition_of_exec hrst hphase hcont, State.startFrame, hdecode]
  rw [step_of_transition htransition, State.unknownCommand_eq_nacked]

end Sys2Proof.Machine
end

section
/-! PROOFS. The moves of `S.state` (spec/43_commands.md R243): the table as a relation, then rule by rule that no other move is
made. -/

namespace Sys2Proof.Machine

/-! ### The table of R243 -/

/-- The states in which the engine runs commands; COMPLETED and ROLLBACK halt it, and the other two are never entered. -/
def Served (a : SessionState) : Prop := a = .idle ∨ a = .receiving ∨ a = .verifying ∨ a = .error

/-- The moves of R243. `dataOrEnd` says that the step runs a DATA or an END, without which ERROR is not entered (R236). -/
inductive StateMove (dataOrEnd : Prop) : SessionState → SessionState → Prop
  | stay (a : SessionState) : StateMove dataOrEnd a a
  | wrongState (h : dataOrEnd) : StateMove dataOrEnd .idle .error
  | start {a : SessionState} (ha : a = .idle ∨ a = .error) : StateMove dataOrEnd a .receiving
  | abort {a : SessionState} (ha : a = .receiving ∨ a = .verifying ∨ a = .error) : StateMove dataOrEnd a .idle
  | verify : StateMove dataOrEnd .receiving .verifying
  | complete : StateMove dataOrEnd .verifying .completed
  | rollback {a : SessionState} (ha : Served a) : StateMove dataOrEnd a .rollback

theorem stateMove_iff (P : Prop) (a b : SessionState) :
    StateMove P a b ↔
      b = a ∨ (a = .idle ∧ b = .error ∧ P) ∨ ((a = .idle ∨ a = .error) ∧ b = .receiving) ∨
      ((a = .receiving ∨ a = .verifying ∨ a = .error) ∧ b = .idle) ∨ (a = .receiving ∧ b = .verifying) ∨
      (a = .verifying ∧ b = .completed) ∨
      ((a = .idle ∨ a = .receiving ∨ a = .verifying ∨ a = .error) ∧ b = .rollback) := by
  constructor
  · rintro (_ | h | ha | ha | _ | _ | ha)
    · exact .inl rfl
    · exact .inr (.inl ⟨rfl, rfl, h⟩)
    · exact .inr (.inr (.inl ⟨ha, rfl⟩))
    · exact .inr (.inr (.inr (.inl ⟨ha, rfl⟩)))
    · exact .inr (.inr (.inr (.inr (.inl ⟨rfl, rfl⟩))))
    · exact .inr (.inr (.inr (.inr (.inr (.inl ⟨rfl, rfl⟩)))))
    · exact .inr (.inr (.inr (.inr (.inr (.inr ⟨ha, rfl⟩)))))
  · rintro (rfl | ⟨rfl, rfl, h⟩ | ⟨ha, rfl⟩ | ⟨ha, rfl⟩ | ⟨rfl, rfl⟩ | ⟨rfl, rfl⟩ | ⟨ha, rfl⟩)
    · exact .stay _
    · exact .wrongState h
    · exact .start ha
    · exact .abort ha
    · exact .verify
    · exact .complete
    · exact .rollback ha

/-- A session that an abort has cleared is idle, wherever it was served. -/
theorem StateMove.of_aborted {P : Prop} {a : SessionState} (ha : Served a) : StateMove P a .idle := by
  rcases ha with rfl | ha
  · exact .stay _
  · exact .abort ha

/-- While no halt is requested the session is in a state that serves (R34 (b), R242). -/
theorem Session.Consistent.served {r : Session} {m : Memory} (hr : r.Consistent .noHalt m) : Served r.state := by
  obtain ⟨-, -, ⟨hwaiting, happlying⟩, -⟩ := hr.registers
  have hcompleted : r.state ≠ .completed := fun h => nomatch hr.restart.2 h
  have hrollback : r.state ≠ .rollback := fun h => nomatch hr.rollback.2 h
  unfold Served
  cases h : r.state <;> simp_all

/-! ### The rules -/

section
variable {P : Prop} {s u : State}

theorem State.stateMove_abortInternal (hs : Served s.sess.state) (k : AfterAbort) :
    StateMove P s.sess.state (s.abortInternal k).sess.state := by
  rcases s.abortInternal_cases k with ⟨-, h⟩ | ⟨-, h⟩ <;> rw [h]
  · exact .stay _
  · rw [State.endAbort_sess]
    exact .of_aborted hs

/-- R236: ERROR from IDLE, and it stays ERROR. -/
theorem State.stateMove_wrongState (s : State) (hP : P) (seq : U16) :
    StateMove P s.sess.state (s.wrongState seq).finish.sess.state := by
  rw [State.wrongState_eq]
  simp only [State.finish_sess]
  split_ifs with hstate
  · rcases hstate with h | h <;> rw [h]
    · exact .wrongState hP
    · exact .stay _
  · exact .stay _

theorem exec_stateMove {i : Instr} (hs : Served s.sess.state) (hP : i.opcode = .data ∨ i.opcode = .endTransfer → P)
    (h : exec i s = .next u) : StateMove P s.sess.state u.sess.state := by
  rcases exec_next h with ⟨c, -, rfl⟩ | ⟨hop, -, rfl⟩ | ⟨-, -, rfl⟩ | ⟨-, -, -, -, rfl⟩ | ⟨-, -, c, -, rfl⟩ |
    ⟨-, hstate, -, rfl⟩ | ⟨-, rfl⟩ | ⟨-, rfl⟩ | ⟨-, -, rfl⟩
  · exact .stay _
  · exact s.stateMove_wrongState (hP hop) _
  · exact .stay _
  · exact .stay _
  · exact State.stateMove_abortInternal (s := s.nack _ c) hs .finished
  · rw [hstate]
    exact .verify
  · exact State.stateMove_abortInternal hs _
  · exact .stay _
  · exact .rollback hs

theorem startFrame_stateMove (hs : Served s.sess.state) (h : s.startFrame = .next u) :
    StateMove (∃ i, decode s.eng.cur = .instr i ∧ (i.opcode = .data ∨ i.opcode = .endTransfer))
      s.sess.state u.sess.state := by
  rcases startFrame_next h with ⟨e, -, rfl⟩ | ⟨fr, -, rfl⟩ | ⟨i, hdecode, hi⟩
  · exact .stay _
  · exact .stay _
  · exact exec_stateMove hs (fun hop => ⟨i, hdecode, hop⟩) hi

/-- An answer: where the request was issued tells where the session is. -/
theorem resume_stateMove {pd : Pending} {r : BkResp} (hs : Served s.sess.state) (hpending : pd.Inv s)
    (h : resume pd.cont r s = .next u) : StateMove P s.sess.state u.sess.state := by
  obtain ⟨req, k⟩ := pd
  rcases resume_next h with ⟨q, size, fcrc, hd, rfl, -, rfl⟩ | ⟨q, size, fcrc, -, -, rfl⟩ | ⟨q, p, -, -, rfl⟩ |
    ⟨q, p, -, -, rfl⟩ | ⟨q, -, -, rfl⟩ | ⟨q, -, -, rfl⟩ | ⟨q, rfl, -, rfl⟩ | ⟨q, -, -, rfl⟩ | ⟨a, -, -, rfl⟩
  · obtain ⟨-, -, hstate⟩ := pendingInv_startBegin.1 hpending
    exact .start hstate
  · exact .stay _
  · rw [State.acceptData_eq]
    exact .stay _
  · exact State.stateMove_abortInternal (s := s.nack q .flashWrite) hs .finished
  · exact .stay _
  · exact .stay _
  · obtain ⟨-, -, hstate⟩ := pendingInv_endSetBoot.1 hpending
    rw [hstate]
    exact .complete
  · exact .stay _
  · rw [State.endAbort_sess]
    exact .of_aborted hs

/-- Only the transitions of EXEC move it. -/
theorem transition_stateMove (hinv : s.Inv) (hrst : s.env.rst = false) (h : s.transition = .next u) :
    StateMove (∃ i, decode s.eng.cur = .instr i ∧ (i.opcode = .data ∨ i.opcode = .endTransfer))
      s.sess.state u.sess.state := by
  rcases transition_next h with ⟨hrst', -⟩ | ⟨-, -, rfl⟩ | ⟨-, hphase, -, hstart⟩ | ⟨-, -, -, -, rfl⟩ |
    ⟨-, hphase, pd, a, as, hcont, -, hresume⟩ | ⟨-, -, -, rfl⟩ | ⟨-, -, -, b, rest, -, rfl⟩ | ⟨-, -, rfl⟩
  · simp [hrst] at hrst'
  · rw [State.scanStep_sess]
    exact .stay _
  · exact startFrame_stateMove (State.executing_of_inv hinv hphase).consistent.served hstart
  · exact .stay _
  · obtain ⟨-, hph, -⟩ := s.inv_iff.1 hinv
    obtain ⟨-, -, -, hpending⟩ := (State.phaseInv_of_waiting hphase hcont).1 hph
    exact resume_stateMove (s := s.takeAnswer) (State.executing_of_inv hinv hphase).consistent.served hpending hresume
  · exact .stay _
  · exact .stay _
  · exact .stay _

end

/-- Settles O54: a step is a transition, then the environment's part, which is not the session's. -/
theorem sessionStateMoves : Obligations.SessionStateMoves := by
  intro s t hinv hrst h
  obtain ⟨u, hu, rfl⟩ := step_next h
  rw [State.advance_sess]
  exact (stateMove_iff _ _ _).1 (transition_stateMove hinv hrst hu)

end Sys2Proof.Machine
end

section
/-! PROOFS. The replies (spec/44_replies.md): the percentage of PROGRESS (R262, R263), and what a step appends to `E.txq`
(R267, R273), first for the last operation of a rule, then for every transition. -/

namespace Sys2Proof.Machine

/-! ### The percentage (R262) -/

/-- The total is reached, or it is 0: both give 100 (R262). -/
theorem percent_of_reached {received total : U32} (h : total.toNat ≤ received.toNat) : percent received total = 100 := by
  unfold percent
  split_ifs with hzero
  · rfl
  · have hpos : 0 < total.toNat := Nat.pos_of_ne_zero fun h0 => hzero (BitVec.eq_of_toNat_eq h0)
    refine Nat.min_eq_left ((Nat.le_div_iff_mul_le hpos).2 ?_)
    rw [Nat.mul_comm]
    exact Nat.mul_le_mul_right 100 h

theorem hundredfold_div_lt {received total : U32} (h : received.toNat < total.toNat) :
    received.toNat * 100 / total.toNat < 100 :=
  Nat.div_lt_of_lt_mul (by omega)

/-- Below the total the clamp to 100 does nothing: the percentage is the quotient. -/
theorem percent_of_lt {received total : U32} (h : received.toNat < total.toNat) :
    percent received total = received.toNat * 100 / total.toNat := by
  have hne : total ≠ 0 := by rintro rfl; exact Nat.not_lt_zero _ h
  rw [percent, if_neg hne, Nat.min_eq_right (hundredfold_div_lt h).le]

theorem percent_eq_hundred_iff (received total : U32) : percent received total = 100 ↔ total.toNat ≤ received.toNat := by
  refine ⟨fun h => not_lt.1 fun hlt => ?_, percent_of_reached⟩
  rw [percent_of_lt hlt] at h
  exact (hundredfold_div_lt hlt).ne h

/-- Settles O49: the total is reached, or the percentage is a quotient, which lies between its two products. -/
theorem percentageRule : Obligations.PercentageRule := by
  intro received total
  refine ⟨percent_le_hundred _ _, percent_eq_hundred_iff _ _, fun hlt => ?_, val_decileOf (percent_le_hundred _ _)⟩
  rw [percent_of_lt hlt]
  have hpos : 0 < total.toNat := Nat.zero_lt_of_lt hlt
  exact ⟨Nat.div_mul_le_self _ _, (Nat.div_lt_iff_lt_mul hpos).1 (Nat.lt_succ_self _)⟩

/-! ### What is appended to `E.txq` (R267, R273) -/

/-- The codes of ACK, NACK, READY, COMPLETE and STATUS_RESP, the replies that may come alone; ERROR's 0x86 is not among
them (R267). -/
abbrev replyCodes : List Byte := [0x81#8, 0x82#8, 0x83#8, 0x85#8, 0x87#8]

/-- What a step may append: nothing, one reply that may come alone, or ACK and then PROGRESS to the same request. -/
inductive Replies : List Byte → Prop
  | silent : Replies []
  | one {code : Byte} (hcode : code ∈ replyCodes) (seq : U16) (off : U32) (p : List Byte) :
      Replies (encodeFrame code seq off p)
  | ackThenProgress (seq : U16) (off : U32) (p p' : List Byte) :
      Replies (encodeFrame 0x81#8 seq off p ++ encodeFrame 0x84#8 seq off p')

/-- `u` has the queue of `s`, with such replies appended. -/
def State.Queues (s u : State) : Prop := ∃ q, Replies q ∧ u.eng.txq = s.eng.txq ++ q

theorem State.Queues.of_txq_eq {s u : State} (h : u.eng.txq = s.eng.txq) : s.Queues u :=
  ⟨[], .silent, by rw [h, List.append_nil]⟩

theorem State.Queues.of_one {s u : State} {code : Byte} {seq : U16} {off : U32} {p : List Byte}
    (hcode : code ∈ replyCodes)
    (h : u.eng.txq = s.eng.txq ++ encodeFrame code seq off p) : s.Queues u :=
  ⟨_, .one hcode seq off p, h⟩

/-- The internal abort's end queues ABORT's ACK, or nothing (R220, R240). -/
theorem replies_afterAbort (k : AfterAbort) : Replies k.replies := by
  cases k with
  | finished => exact .silent
  | ack seq => exact .one (by decide) seq _ _

theorem State.queues_abortInternal (s : State) (k : AfterAbort) : s.Queues (s.abortInternal k) := by
  rcases s.abortInternal_cases k with ⟨-, h⟩ | ⟨-, h⟩ <;> rw [h]
  · exact .of_txq_eq rfl
  · exact ⟨_, replies_afterAbort k, s.endAbort_txq k⟩

/-- R203: the ACK of an accepted DATA frame, and the PROGRESS if it is due, with the sequence and the offset of the ACK. -/
theorem State.queues_acceptData (s : State) (seq : U16) (p : List Byte) : s.Queues (s.acceptData seq p) := by
  rw [State.acceptData_eq]
  refine ⟨_, ?_, rfl⟩
  unfold State.progressReply
  split_ifs
  · exact .ackThenProgress seq _ _ _
  · rw [List.append_nil]
    exact .one (by decide) seq _ _

theorem RuleResult.queues {s u : State} (h : RuleResult s u) : s.Queues u := by
  cases h with
  | request | write | verify => exact .of_txq_eq rfl
  | nack | status | rollback | complete => exact .of_one (by decide) rfl
  | wrongState q => rw [State.wrongState_eq]; exact .of_one (by decide) rfl
  | abort k => exact s.queues_abortInternal k
  | fail q c => exact .of_one (by decide) ((s.nack q c).txq_abortInternal_finished.trans (s.nack_txq q c))
  | released k => exact ⟨_, replies_afterAbort k, State.endAbort_txq _ k⟩

theorem startFrame_queues {s u : State} (h : s.startFrame = .next u) : s.Queues u := by
  rcases startFrame_ruleResult h with ⟨c, rfl⟩ | hrule
  · exact .of_txq_eq rfl
  · exact hrule.queues

theorem resume_queues {k : Cont} {r : BkResp} {s u : State} (h : resume k r s = .next u) : s.Queues u := by
  rcases resume_ruleResult h with ⟨q, size, fcrc, hd, -, -, rfl⟩ | ⟨q, p, -, -, rfl⟩ | hrule
  · exact .of_one (by decide) (s.startOk_txq q size fcrc hd)
  · exact s.queues_acceptData q p
  · exact hrule.queues

/-! ### Every step -/

@[simp] theorem State.rxStep_txq (s : State) (b : Byte) : (s.rxStep b).eng.txq = s.eng.txq := by
  rcases s.rxStep_cases b with ⟨-, h⟩ | ⟨_, -, h⟩ <;> rw [h]

@[simp] theorem State.scanStep_txq (s : State) : s.scanStep.eng.txq = s.eng.txq := by
  rcases s.scanStep_cases with ⟨-, h⟩ | ⟨b, rest, -, h⟩ <;> rw [h]
  rw [State.rxStep_txq]

/-- Replies are appended in EXEC only; in TX the first byte leaves the queue. -/
theorem transition_queues {s u : State} (hrst : s.env.rst = false) (h : s.transition = .next u) :
    s.Queues u ∨ ∃ b, s.eng.txq = b :: u.eng.txq := by
  rcases transition_next h with ⟨hrst', -⟩ | ⟨-, -, rfl⟩ | ⟨-, -, -, hstart⟩ | ⟨-, -, -, -, rfl⟩ |
    ⟨-, -, pd, a, as, -, -, hresume⟩ | ⟨-, -, -, rfl⟩ | ⟨-, -, -, b, rest, htxq, rfl⟩ | ⟨-, -, rfl⟩
  · simp [hrst] at hrst'
  · exact .inl (.of_txq_eq s.scanStep_txq)
  · exact .inl (startFrame_queues hstart)
  · exact .inl (.of_txq_eq rfl)
  · exact .inl (resume_queues (s := s.takeAnswer) hresume)
  · exact .inl (.of_txq_eq rfl)
  · exact .inr ⟨b, htxq⟩
  · exact .inl (.of_txq_eq rfl)

/-- Settles O56: the transition appends such replies or sends a byte, and the environment's part is not the queue's. -/
theorem repliesQueued : Obligations.RepliesQueued := by
  intro s t hrst h
  obtain ⟨u, hu, rfl⟩ := step_next h
  rw [State.advance_eng]
  rcases transition_queues hrst hu with ⟨q, hq, htxq⟩ | hsent
  · cases hq with
    | silent => exact .inl (by rw [htxq, List.append_nil])
    | one hcode seq off p => exact .inr (.inr (.inl ⟨_, hcode, seq, off, p, htxq⟩))
    | ackThenProgress seq off p p' => exact .inr (.inr (.inr ⟨seq, off, p, p', by rw [htxq, List.append_assoc]⟩))
  · exact .inr (.inl hsent)

end Sys2Proof.Machine
end

section
/-! PROOFS. The driver (spec/45_driver.md): what the step of each phase is (R280 to R285), how a queue is sent (R284, R285,
R288), and QUERY_STATUS from its first byte received to the last byte of its answer sent (R289). -/

namespace Sys2Proof.Machine

/-! ### The transition of each phase (R287) -/

section
variable {s : State}

theorem step_of_fault {f : Fault} (h : s.transition = .fault f) : step s = .fault f := by
  rw [step, driverStep, h]

theorem step_of_refused {r : Refusal} (h : s.transition = .refused r) : step s = .refused r := by
  rw [step, driverStep, h]

variable (hrst : s.env.rst = false)
include hrst

theorem transition_of_scan (hphase : s.eng.phase = .scan) : s.transition = .next s.scanStep := by
  simp only [State.transition, hrst, hphase, Bool.false_eq_true, if_false]

theorem transition_of_outstanding {pd : Pending} (hphase : s.eng.phase = .exec) (hcont : s.eng.cont = some pd) :
    s.transition = s.awaitAnswer pd := by
  simp only [State.transition, hrst, hphase, hcont, Bool.false_eq_true, if_false]

theorem transition_of_tx (hphase : s.eng.phase = .tx) : s.transition = s.txStep := by
  simp only [State.transition, hrst, hphase, Bool.false_eq_true, if_false]

theorem transition_of_halt (hphase : s.eng.phase = .halt) : s.transition = .next s := by
  simp only [State.transition, hrst, hphase, Bool.false_eq_true, if_false]

theorem transition_of_decoded {i : Instr} (hphase : s.eng.phase = .exec) (hcont : s.eng.cont = none)
    (hi : decode s.eng.cur = .instr i) : s.transition = exec i s := by
  rw [transition_of_exec hrst hphase hcont, State.startFrame, hi]

end

/-- Settles O18: the transition is `exec i`, whatever its outcome. -/
theorem stepRunsTheDecodedInstruction : Obligations.StepRunsTheDecodedInstruction := by
  intro s i hrst hphase hcont hi
  have htransition := transition_of_decoded hrst hphase hcont hi
  cases h : exec i s with
  | next t => exact step_of_transition (htransition.trans h)
  | fault f => exact step_of_fault (htransition.trans h)
  | refused r => exact step_of_refused (htransition.trans h)

/-! ### Waiting (R66, R280, R284, R285) -/

section
variable {s : State}

theorem State.scanStep_of_nothing (hrx : s.env.rx = []) : s.scanStep = s := by
  rw [State.scanStep, hrx]

theorem State.awaitAnswer_of_nothing (pd : Pending) (hbk : s.env.bkResp = []) : s.awaitAnswer pd = .next s := by
  rw [State.awaitAnswer, hbk]

theorem State.txStep_of_not_ready (hready : s.env.txReady = false) : s.txStep = .next s := by
  simp only [State.txStep, hready, Bool.false_eq_true, if_false]

end

/-- Settles O23: in each of the four phases the transition is to the state itself. -/
theorem engineWaits : Obligations.EngineWaits := by
  intro s hrst hwaits
  refine step_of_transition ?_
  rcases hwaits with ⟨hphase, hrx⟩ | ⟨hphase, hcont, hbk⟩ | ⟨hphase, hready⟩ | hphase
  · rw [transition_of_scan hrst hphase, State.scanStep_of_nothing hrx]
  · obtain ⟨pd, hpd⟩ := Option.ne_none_iff_exists'.1 hcont
    rw [transition_of_outstanding hrst hphase hpd, State.awaitAnswer_of_nothing pd hbk]
  · rw [transition_of_tx hrst hphase, State.txStep_of_not_ready hready]
  · exact transition_of_halt hrst hphase

/-! ### The requests (R66, R286) -/

theorem step_issuesAtMostOne {s t : State} (h : step s = .next t) : s.IssuesAtMostOne t := by
  obtain ⟨u, hu, rfl⟩ := step_next h
  have hbk : u.advance.bkReq = u.bkReq := by simp only [State.bkReq, State.advance_eng]
  unfold State.IssuesAtMostOne
  rw [State.advance_out, hbk]
  exact transition_issuesAtMostOne hu

/-- Settles O58: while a request is outstanding without its answer the engine waits, so it issues no other. -/
theorem oneRequestAtATime : Obligations.OneRequestAtATime := by
  intro s t hrst h
  rcases step_issuesAtMostOne h with hnone | ⟨q, hone, hout⟩
  · exact .inl hnone
  refine .inr ⟨q, hone, hout, ?_⟩
  by_contra hno
  obtain ⟨hbusy, hunanswered⟩ := not_or.1 hno
  obtain ⟨q', hq'⟩ := Option.ne_none_iff_exists'.1 hbusy
  obtain ⟨hphase, k, hcont⟩ := (s.bkReq_eq_some q').1 hq'
  have hwait : step s = .next s.advance :=
    engineWaits s hrst (.inr (.inl ⟨hphase, by simp [hcont], not_not.1 hunanswered⟩))
  cases hwait.symm.trans h
  simp at hone

/-! ### A queue sent (R284, R285, R288) -/

theorem phaseAfterTx_eq_ite (h : HaltReq) : phaseAfterTx h = if h = .noHalt then .scan else .halt := by
  cases h <;> rfl

/-- `s` with its whole queue sent. -/
def State.queueSent (s : State) : State :=
  { s with
    eng := { s.eng with txq := [], phase := phaseAfterTx s.eng.halt }
    out := { s.out with tx := s.out.tx ++ s.eng.txq } }

section
variable {s : State} {b : Byte} {rest : List Byte}

theorem State.sendByte_of_last (htxq : s.eng.txq = [b]) : s.sendByte b [] = s.queueSent := by
  rw [State.sendByte, State.queueSent, htxq, if_pos rfl]

theorem State.sendByte_of_more (hrest : rest ≠ []) :
    s.sendByte b rest =
      { s with eng := { s.eng with txq := rest, phase := .tx }, out := { s.out with tx := s.out.tx ++ [b] } } := by
  rw [State.sendByte, if_neg hrest]

/-- One byte less to send leaves the same in the end. -/
theorem State.queueSent_sendByte (htxq : s.eng.txq = b :: rest) : (s.sendByte b rest).queueSent = s.queueSent := by
  simp only [State.queueSent, State.sendByte, htxq, List.append_assoc, List.singleton_append]

theorem step_of_sendByte (hrst : s.env.rst = false) (hphase : s.eng.phase = .tx) (hready : s.env.txReady = true)
    (htxq : s.eng.txq = b :: rest) : step s = .next (s.sendByte b rest).advance := by
  have hsend : s.txStep = .next (s.sendByte b rest) := by
    simp only [State.txStep, hready, htxq, if_true, State.sendByte]
  exact step_of_transition ((transition_of_tx hrst hphase).trans hsend)

end

/-- Settles O24: the byte sent is the first one; the phase after the last is read off `E.halt`. -/
theorem transmitStep : Obligations.TransmitStep := by
  intro s b rest hrst hphase hready htxq
  rw [step_of_sendByte hrst hphase hready htxq, State.sendByte, phaseAfterTx_eq_ite, ite_not]

theorem step_of_sendByte_undisturbed {s : State} {b : Byte} {rest : List Byte} (hquiet : s.Undisturbed)
    (hphase : s.eng.phase = .tx) (hready : s.env.txReady = true) (htxq : s.eng.txq = b :: rest) :
    step s = .next (s.sendByte b rest) := by
  rw [step_of_sendByte hquiet.1 hphase hready htxq, State.advance_of_nil _ (by exact hquiet.2)]

/-- A queue is sent in as many steps as it has bytes: by induction on the bytes behind the first. -/
theorem run_queue (rest : List Byte) (b : Byte) (s : State) (hquiet : s.Undisturbed) (hphase : s.eng.phase = .tx)
    (hready : s.env.txReady = true) (htxq : s.eng.txq = b :: rest) : run (rest.length + 1) s = .next s.queueSent := by
  induction rest generalizing b s with
  | nil =>
    have hstep := step_of_sendByte_undisturbed hquiet hphase hready htxq
    rw [run_succ_of_step _ hstep, State.sendByte_of_last htxq]
    rfl
  | cons c rest ih =>
    have hstep := step_of_sendByte_undisturbed hquiet hphase hready htxq
    have hphase' : (s.sendByte b (c :: rest)).eng.phase = .tx := by rw [State.sendByte_of_more (List.cons_ne_nil c rest)]
    rw [List.length_cons, run_succ_of_step _ hstep, ih c (s.sendByte b (c :: rest)) hquiet hphase' hready rfl,
      State.queueSent_sendByte htxq]

/-- Settles O25: the queue is not empty, so it has a first byte. -/
theorem queueIsSentInOrder : Obligations.QueueIsSentInOrder := by
  intro s hquiet hphase hready hne
  obtain ⟨b, rest, htxq⟩ := List.exists_cons_of_ne_nil hne
  rw [htxq, List.length_cons, run_queue rest b s hquiet hphase hready htxq, State.queueSent, phaseAfterTx_eq_ite, htxq]

/-! ### One command and its one reply (R270, R288, R289) -/

theorem run_add_of_next {m n : Nat} {s t : State} (h : run m s = .next t) : run (m + n) s = run n t := by
  induction m generalizing s with
  | zero =>
    cases h
    rw [Nat.zero_add]
  | succ m ih =>
    obtain ⟨u, hstep, hrun⟩ := run_succ_next h
    rw [Nat.add_right_comm, run_succ_of_step _ hstep, ih hrun]

/-- The one reply of a command that asks for no halt is sent, and the engine is at rest. -/
theorem run_replied {s : State} (hquiet : s.Undisturbed) (hready : s.env.txReady = true) (htxq : s.eng.txq = [])
    (hhalt : s.eng.halt = .noHalt) (code : Byte) (seq : U16) (p : List Byte) :
    run (16 + p.length) (s.replied code seq p) = .next
      { s with
        eng := { s.eng with phase := .scan, cont := none }
        out := { s.out with tx := s.out.tx ++ encodeFrame code seq s.sess.receivedBytes p } } := by
  have hqueue : (s.replied code seq p).eng.txq = encodeFrame code seq s.sess.receivedBytes p := by
    rw [State.replied, htxq, List.nil_append]
  have hsent := queueIsSentInOrder (s.replied code seq p) hquiet rfl hready
    (hqueue ▸ encodeFrame_ne_nil code seq s.sess.receivedBytes p)
  rw [hqueue, encodeFrame_length] at hsent
  rw [hsent]
  simp only [State.replied, hhalt, htxq, if_true]

/-- An instruction whose whole effect is one reply, from the first byte of its frame received to the last byte of the reply
sent: only `E.cur` has changed. -/
theorem run_oneReply {s : State} {i : Instr} {rest : List Byte} {code : Byte} {seq : U16} {p : List Byte}
    (hwf : i.wf = true) (hquiet : s.Undisturbed) (hinv : s.Inv) (hphase : s.eng.phase = .scan) (hbuf : s.fbuf = [])
    (hready : s.env.txReady = true) (hrx : s.env.rx = encode i ++ rest)
    (hexec : exec i (s.extracted (encode i) rest) = .next ((s.extracted (encode i) rest).replied code seq p)) :
    run ((encode i).length + 1 + (16 + p.length)) s = .next
      { s with
        eng := { s.eng with cur := encode i }
        env := { s.env with rx := rest }
        out := { s.out with tx := s.out.tx ++ encodeFrame code seq s.sess.receivedBytes p } } := by
  obtain ⟨-, hphaseInv, -⟩ := hinv
  obtain ⟨htxq, hhalt, hcont, -⟩ := (State.phaseInv_of_scan hphase).1 hphaseInv
  obtain ⟨hreceive, hrule⟩ := frameBytesRunTheInstruction s i rest hwf hquiet hphase (.inl hbuf) hrx
  have hcommand : run ((encode i).length + 1) s = .next ((s.extracted (encode i) rest).replied code seq p) := by
    rw [run_add_of_next hreceive, run_succ_of_step 0 (hrule.trans hexec), run]
  have hreply := run_replied (s := s.extracted (encode i) rest) hquiet hready htxq hhalt code seq p
  rw [run_add_of_next hcommand, hreply]
  simp only [State.extracted, hphase, hcont, hbuf]

/-- Settles O50: the whole effect of QUERY_STATUS is one reply, of 16 + 42 bytes. -/
theorem queryStatusTransaction : Obligations.QueryStatusTransaction := by
  intro s seq off p rest hp hquiet hinv hphase hbuf hready hrx
  have hwf : (Instr.queryStatus seq off p).wf = true := decide_eq_true hp
  have hframe : (encode (.queryStatus seq off p)).length = 16 + p.length := encodeFrame_length _ _ _ _
  have hexec := queryStatusCompletes.1 (s.extracted (encode (.queryStatus seq off p)) rest) seq off p
  have hrun := run_oneReply (p := statusPayload s.sess.state s.sess.lastError s.sess.receivedBytes s.sess.totalBytes
    s.env.runningVer) hwf hquiet hinv hphase hbuf hready hrx hexec
  rw [hframe, statusPayload_length] at hrun
  exact hrun

end Sys2Proof.Machine
end

section
/-! PROOFS. That every step has a next state (spec/45_driver.md R287, 60_exceptions.md R306): the only faults are an answer of
a kind R41 does not list for its request, and TX with nothing queued. -/

namespace Sys2Proof.Machine

/-! ### The answers R41 lists for each request -/

section
variable {h : Handle} {a : BkResp}

theorem BkReq.admits_beginUpdate_iff {size : U32} :
    (BkReq.beginUpdate size).admits a = true ↔ (∃ hd, a = .okHandle hd) ∨ a = .err := by
  cases a <;> simp [BkReq.admits]

theorem BkReq.admits_write_iff {off : U32} {p : List Byte} :
    (BkReq.write h off p).admits a = true ↔ a = .ok ∨ a = .err := by
  cases a <;> simp [BkReq.admits]

theorem BkReq.admits_endUpdate_iff : (BkReq.endUpdate h).admits a = true ↔ a = .ok ∨ a = .err := by
  cases a <;> simp [BkReq.admits]

theorem BkReq.admits_setBoot_iff : (BkReq.setBoot h).admits a = true ↔ a = .ok ∨ a = .err := by
  cases a <;> simp [BkReq.admits]

theorem BkReq.admits_abortUpdate_iff : (BkReq.abortUpdate h).admits a = true ↔ a = .done := by
  cases a <;> simp [BkReq.admits]

end

/-! ### The rules (R281, R282) -/

/-- No command rule faults or refuses before its first request, in any state: each is `.next` of what it leaves. -/
theorem exists_exec_next (i : Instr) (s : State) : ∃ u, exec i s = .next u := by
  cases i <;> exact ⟨_, rfl⟩

theorem exists_startFrame_next (s : State) : ∃ u, s.startFrame = .next u := by
  unfold State.startFrame
  cases decode s.eng.cur with
  | bad e => exact ⟨s.drop e.reason, rfl⟩
  | reserved fr => exact ⟨s.unknownCommand fr.sequence, rfl⟩
  | instr i => exact exists_exec_next i s

/-- The abort's request is on the port whatever follows the abort. -/
theorem Pending.Inv.req_of_abortDone {s : State} {q : BkReq} {k : AfterAbort} (h : Pending.Inv ⟨q, .abortDone k⟩ s) :
    q = .abortUpdate s.sess.handle := by
  cases k with
  | finished => exact (pendingInv_abortDone_finished.1 h).1
  | ack => exact (pendingInv_abortDone_ack.1 h).1

/-- The continuation fits the request on the port, so a rule is resumed with an answer it has a case for. -/
theorem exists_resume_next {pd : Pending} {s : State} {a : BkResp} (hpending : pd.Inv s) (hfits : pd.req.admits a = true)
    (w : State) : ∃ u, resume pd.cont a w = .next u := by
  obtain ⟨q, k⟩ := pd
  cases k with
  | startBegin =>
    obtain ⟨rfl, -⟩ := pendingInv_startBegin.1 hpending
    obtain ⟨hd, rfl⟩ | rfl := BkReq.admits_beginUpdate_iff.1 hfits
    · exact ⟨_, rfl⟩
    · exact ⟨_, rfl⟩
  | dataWrite =>
    obtain ⟨rfl, -⟩ := pendingInv_dataWrite.1 hpending
    obtain rfl | rfl := BkReq.admits_write_iff.1 hfits
    · exact ⟨_, rfl⟩
    · exact ⟨_, rfl⟩
  | endEnd =>
    obtain ⟨rfl, -⟩ := pendingInv_endEnd.1 hpending
    obtain rfl | rfl := BkReq.admits_endUpdate_iff.1 hfits
    · exact ⟨_, rfl⟩
    · exact ⟨_, rfl⟩
  | endSetBoot =>
    obtain ⟨rfl, -⟩ := pendingInv_endSetBoot.1 hpending
    obtain rfl | rfl := BkReq.admits_setBoot_iff.1 hfits
    · exact ⟨_, rfl⟩
    · exact ⟨_, rfl⟩
  | abortDone =>
    obtain rfl := hpending.req_of_abortDone
    obtain rfl := BkReq.admits_abortUpdate_iff.1 hfits
    exact ⟨_, rfl⟩

/-! ### The driver (R284, R287) -/

section
variable {s : State}

theorem exists_awaitAnswer_next {pd : Pending} (hpending : pd.Inv s)
    (hfits : ∀ a, s.env.bkResp.head? = some a → pd.req.admits a = true) : ∃ u, s.awaitAnswer pd = .next u := by
  unfold State.awaitAnswer
  cases hbk : s.env.bkResp with
  | nil => exact ⟨s, rfl⟩
  | cons a answers => exact exists_resume_next hpending (hfits a (by rw [hbk]; rfl)) s.takeAnswer

theorem exists_txStep_next (htxq : s.eng.txq ≠ []) : ∃ u, s.txStep = .next u := by
  obtain ⟨b, rest, hq⟩ := List.exists_cons_of_ne_nil htxq
  unfold State.txStep
  rw [hq]
  split
  · exact ⟨s.sendByte b rest, rfl⟩
  · exact ⟨s, rfl⟩

/-- The invariant excludes TX with an empty queue, and ties the outstanding request to its continuation. -/
theorem exists_transition_next (hinv : s.Inv) (hfits : s.AnswerFits) : ∃ u, s.transition = .next u := by
  obtain ⟨-, hphaseInv, -⟩ := hinv
  cases hrst : s.env.rst with
  | true => exact ⟨s.resetStep, if_pos hrst⟩
  | false =>
    cases hphase : s.eng.phase with
    | scan => exact ⟨_, transition_of_scan hrst hphase⟩
    | exec =>
      cases hcont : s.eng.cont with
      | none =>
        rw [transition_of_exec hrst hphase hcont]
        exact exists_startFrame_next s
      | some pd =>
        obtain ⟨-, -, -, hpending⟩ := (State.phaseInv_of_waiting hphase hcont).1 hphaseInv
        rw [transition_of_outstanding hrst hphase hcont]
        exact exists_awaitAnswer_next hpending (hfits pd.req (State.bkReq_of_exec hphase hcont))
    | tx =>
      obtain ⟨htxq, -⟩ := (State.phaseInv_of_tx hphase).1 hphaseInv
      rw [transition_of_tx hrst hphase]
      exact exists_txStep_next htxq
    | halt => exact ⟨s, transition_of_halt hrst hphase⟩

end

/-- Settles O53: the environment's part after the transition cannot fail. -/
theorem noStepFaults : Obligations.NoStepFaults := by
  intro s hinv hfits
  obtain ⟨u, hu⟩ := exists_transition_next hinv hfits
  exact ⟨u.advance, step_of_transition hu⟩

end Sys2Proof.Machine
end

section
/-! PROOFS. Reset and the hazards (spec/70_reset_and_hazards.md): what reset leaves (R340 to R342), that nothing else ends HALT
(R343), and that an accepted DATA frame is refused when it is sent again (R353). -/

namespace Sys2Proof.Machine

/-! ### A frame sent again (R353) -/

/-- What a host's retransmission meets: the session still receiving, and a sequence one further (R203). -/
theorem step_of_acceptedWrite {w t : State} {q : BkReq} {seq : U16} {p : List Byte} {answers : List BkResp}
    (hinv : w.Inv) (hrst : w.env.rst = false) (hphase : w.eng.phase = .exec)
    (hcont : w.eng.cont = some ⟨q, .dataWrite seq p⟩) (hbk : w.env.bkResp = .ok :: answers) (h : step w = .next t) :
    t.sess.state = .receiving ∧ t.sess.expectedSequence = w.sess.expectedSequence + 1 := by
  obtain ⟨-, hph, -⟩ := w.inv_iff.1 hinv
  obtain ⟨-, -, -, hpending⟩ := (State.phaseInv_of_waiting hphase hcont).1 hph
  obtain ⟨-, -, hstate, -⟩ := pendingInv_dataWrite.1 hpending
  obtain ⟨u, hu, rfl⟩ := step_of_answer hrst hphase hcont hbk h
  cases hu
  rw [State.advance_sess, State.acceptData_eq]
  exact ⟨hstate, rfl⟩

/-- Settles O39: the expected sequence has moved on, and it is DATA's first check in RECEIVING. -/
theorem retransmissionIsRefused : Obligations.RetransmissionIsRefused := by
  intro w t u q seq off p p' answers hinv hrst hphase hcont hseq hbk h hsess
  obtain ⟨hstate, hnext⟩ := step_of_acceptedWrite hinv hrst hphase hcont hbk h
  rw [hseq] at hnext
  have hmoved : seq ≠ u.sess.expectedSequence := by
    rw [hsess, hnext]
    bv_omega
  exact ⟨(dataOrderChecks u seq off p' (hsess ▸ hstate)).1 hmoved, hnext⟩

/-! ### HALT (R343) -/

section
variable {s : State}

theorem State.advance_eq (s : State) : s.advance = { s with env := s.advance.env, later := s.advance.later } := by
  unfold State.advance
  split <;> rfl

theorem step_of_halt (hrst : s.env.rst = false) (hphase : s.eng.phase = .halt) : step s = .next s.advance :=
  step_of_transition (transition_of_halt hrst hphase)

/-- However long it runs, only the environment's part of a halted engine's state changes. -/
theorem run_of_halt (n : Nat) (hnr : s.NeverReset) (hphase : s.eng.phase = .halt) :
    ∃ env later, run n s = .next { s with env := env, later := later } := by
  induction n generalizing s with
  | zero => exact ⟨s.env, s.later, rfl⟩
  | succ n ih =>
    have hstep := step_of_halt hnr.1 hphase
    have hphase' : s.advance.eng.phase = .halt := by rw [State.advance_eng, hphase]
    obtain ⟨env, later, hrun⟩ := ih (hnr.step hstep) hphase'
    refine ⟨env, later, ?_⟩
    rw [run_succ_of_step n hstep, hrun, State.advance_eq s]

variable (hphase : s.eng.phase = .halt)
include hphase

theorem State.rxReady_of_halt : s.rxReady = false := by simp [State.rxReady, hphase]

theorem State.txValid_of_halt : s.txValid = false := by simp [State.txValid, hphase]

theorem State.bkReq_of_halt : s.bkReq = none := by simp [State.bkReq, hphase]

theorem State.restartReq_of_halt : s.restartReq = true ↔ s.eng.halt = .restart := by simp [State.restartReq, hphase]

theorem State.rollbackReq_of_halt : s.rollbackReq = true ↔ s.eng.halt = .rollback := by
  simp [State.rollbackReq, hphase]

end

/-- Settles O26: a run changes the environment's part only, and the output ports are functions of the control state. -/
theorem haltIsLeftOnlyByReset : Obligations.HaltIsLeftOnlyByReset := by
  intro n s hnr hphase
  obtain ⟨env, later, hrun⟩ := run_of_halt n hnr hphase
  exact ⟨_, hrun, rfl, rfl, rfl, rfl, rfl, rfl, rfl, State.rxReady_of_halt hphase, State.txValid_of_halt hphase,
    State.bkReq_of_halt hphase, State.restartReq_of_halt hphase, State.rollbackReq_of_halt hphase⟩

/-! ### Reset (R340 to R342) -/

/-- Settles O28: register by register. -/
theorem resetValues : Obligations.ResetValues := by
  refine ⟨?state, ?lastError, ?totalBytes, ?receivedBytes, ?firmwareCRC32, ?expectedSequence, ?imageHeaderChecked,
    ?handleOpen, ?imageCRC32, ?progressDecile, ?fbuf, ?phase, ?txq, ?halt, ?rxReady, ?txValid, ?bkReq, ?restartReq,
    ?rollbackReq⟩ <;> rfl

/-- The reset event is consumed, and with it the answer to a request it abandons (R342). -/
theorem State.resetStep_env (s : State) :
    s.resetStep.env =
      { s.env with
        rst := false
        bkResp := if s.eng.phase = .exec ∧ s.eng.cont ≠ none then s.env.bkResp.tail else s.env.bkResp } := by
  simp only [State.resetStep, Option.isSome_iff_ne_none]

theorem step_of_reset {s : State} (hrst : s.env.rst = true) : step s = .next s.resetStep.advance :=
  step_of_transition (if_pos hrst)

/-- Settles O27: `rst` comes before the phase; the registers of `resetStep`, and the outputs with them, are by definition
those of the reset state (O28). -/
theorem resetStep : Obligations.ResetStep := by
  intro s hrst
  refine ⟨s.resetStep, step_of_reset hrst, ?_⟩
  have hports : s.resetStep.params = s.params ∧ s.resetStep.out = s.out ∧ s.resetStep.later = s.later ∧ _ :=
    ⟨rfl, rfl, rfl, s.resetStep_env⟩
  have hall := And.intro resetValues hports
  simp only [Obligations.ResetValues, and_assoc] at hall
  exact hall

end Sys2Proof.Machine
end
